-- ==== Sys2Proof/Word.lean ====
section
/-! DEFINITION. The word types of the block: the widths of spec/10_state.md and spec/30_encoding.md. -/

namespace Sys2Proof

/-- A 52-bit command bundle (R100). -/
abbrev Bundle := BitVec 52

/-- A raw ADC code, 16 bits unsigned (R101). -/
abbrev AdcCode := BitVec 16

/-- A time or a timestamp, in milliseconds, 32 bits unsigned, modulo 2^32 (R8, R101). -/
abbrev Millis := BitVec 32

/-- A whole number of seconds, 32 bits unsigned (R45). -/
abbrev Seconds := BitVec 32

/-- A 16-bit sample counter (R34, R37). -/
abbrev Counter := BitVec 16

/-- An IEEE 754 binary64 number, held as its 64-bit interchange pattern (R9, R81): bit 63 the sign,
bits 62 to 52 the biased exponent, bits 51 to 0 the fraction. A structure, not a synonym of
`BitVec 64`, so that no integer operation can be applied to a real number by mistake. -/
structure Binary64 where
  bits : BitVec 64
  deriving DecidableEq, Repr, Inhabited

/-- A heater power level, 0 to 6; the code 7 is unrepresentable (R42, R107). -/
abbrev Power := Fin 7

/-- A sub-stage, 0 to 3; 0 means no sub-stage (R41, R106). -/
abbrev Substage := Fin 4

end Sys2Proof
end

