-- ==== Sys2Proof/Config.lean ====
section
/-! DEFINITION. What one instance of the block fixes (R6 of spec/00_scope.md) and the free values:
constants with no body, of which nothing can be proved but what holds whatever they are. The fixed
numbers of R6 stand in Machine/Constants.lean. -/

namespace Sys2Proof

/-- The parameters of one instance of the block (R6): the values the source leaves open or calls
configurable. They are constants of the instance, which no command writes (R89, R310). -/
structure Params where
  /-- `N_AVG`: samples per published estimate. -/
  nAvg : Nat
  /-- `SENSOR_FAULT_LIMIT`: consecutive invalid samples that latch the sensor fault. -/
  sensorFaultLimit : Nat
  /-- `ADC_MAX`: the number of ADC codes; the valid codes are 0 to `ADC_MAX` − 1. -/
  adcMax : Nat
  /-- `VCC`: the divider's supply voltage. -/
  vcc : Binary64
  /-- `R_SERIES`: the divider's fixed resistor, in ohms. -/
  rSeries : Binary64
  /-- `SH_A`, the first Steinhart–Hart constant. -/
  shA : Binary64
  /-- `SH_B`, the second Steinhart–Hart constant. -/
  shB : Binary64
  /-- `SH_C`, the third Steinhart–Hart constant. -/
  shC : Binary64
  /-- `LIN` as data (R152): the values of the configuration function at the codes listed; at a code
  that is not listed `LIN` is the reference definition over the free logarithm `Config.ln`
  (log entry 3, DESIGN CHOICE, safe: every function from codes to numbers is some table). -/
  linTable : List (AdcCode × Binary64)
  /-- `SLICE6_MIN_POWER`: the power needed to be on in slice 6, 5 or 6 (R243). -/
  slice6MinPower : Nat
  /-- `REFLOW_SUB2_LIMIT_C`: the upper bound, in °C, of Reflow sub-stage 2 (R193). -/
  reflowSub2LimitC : Binary64
  /-- `TOP_RELAY_INVERT`: the top relay pin's polarity (R51). -/
  topRelayInvert : Bool
  /-- `BOT_RELAY_INVERT`: the bottom relay pin's polarity (R51). -/
  botRelayInvert : Bool
  deriving DecidableEq, Repr

/-- The binary64 operations, as tags that tell the free NaN patterns of different operations apart. -/
inductive FloatOp where
  | add | sub | mul | div | ln
  deriving DecidableEq, Repr

/-- FREE VALUE (log entry 4): the platform's binary64 logarithm inside `LIN`, at an operand that is
neither a NaN nor a zero nor negative. "The binary64 logarithm differs between platforms" (R152). -/
opaque Config.ln : Binary64 → Binary64

/-- FREE VALUE (log entry 5): the sign and payload of the NaN an operation gives for these operands.
The spec gives the IEEE 754 pattern's layout (R81) and no pattern of a NaN result. -/
opaque Config.nanBits : FloatOp → Binary64 → Binary64 → BitVec 64

end Sys2Proof
end

