-- ==== Sys2Proof/Machine/Binary64.lean ====
section
/-! DEFINITION. IEEE 754 binary64 arithmetic (R9 of spec/00_scope.md, R81 of spec/20_memory.md), exact:
every finite number is a whole number of units of 2^-1074, so an operation computes its exact result
with integers and rounds once, to nearest, ties to even. -/

namespace Sys2Proof.Binary64

/-- The sign bit, bit 63 (R81). -/
def sign (x : Binary64) : Bool := x.bits.msb

/-- The biased exponent, bits 62 to 52 (R81). -/
def expField (x : Binary64) : Nat := x.bits.toNat / 2 ^ 52 % 2 ^ 11

/-- The fraction, bits 51 to 0 (R81). -/
def fracField (x : Binary64) : Nat := x.bits.toNat % 2 ^ 52

/-- The pattern without its sign bit: it orders the numbers of one sign as their magnitudes. -/
def magnitude (x : Binary64) : Nat := x.bits.toNat % 2 ^ 63

def isNaN (x : Binary64) : Bool := x.expField == 2047 && x.fracField != 0

def isInf (x : Binary64) : Bool := x.expField == 2047 && x.fracField == 0

def isFinite (x : Binary64) : Bool := x.expField != 2047

/-- The magnitude of a finite number in units of 2^-1074: the fraction alone where the exponent field
is 0 (a zero or a subnormal), else the fraction with its leading one, scaled by the exponent. -/
def units (x : Binary64) : Nat :=
  if x.expField = 0 then x.fracField else (2 ^ 52 + x.fracField) * 2 ^ (x.expField - 1)

/-- The signed value of a finite number in units of 2^-1074. -/
def toUnits (x : Binary64) : Int := if x.sign then -(x.units : Int) else x.units

/-- A number from its sign and the magnitude of its pattern. -/
def ofMagnitude (neg : Bool) (mag : Nat) : Binary64 :=
  ⟨BitVec.ofNat 64 ((if neg then 2 ^ 63 else 0) + mag)⟩

/-- The pattern of infinity: the exponent field all ones, the fraction 0. -/
def infMagnitude : Nat := 2047 * 2 ^ 52

def zero (neg : Bool) : Binary64 := ofMagnitude neg 0

def inf (neg : Bool) : Binary64 := ofMagnitude neg infMagnitude

/-- A quiet NaN whose sign and payload are free (log entry 5). -/
def nan (op : FloatOp) (x y : Binary64) : Binary64 :=
  ⟨Config.nanBits op x y ||| 0x7FF8000000000000#64⟩

/-- `n / d` rounded to the nearest integer, ties to even. -/
def roundDiv (n d : Nat) : Nat :=
  let q := n / d
  let r := n % d
  if 2 * r < d then q else if d < 2 * r then q + 1 else q + q % 2

/-- The magnitude pattern nearest to `n / d` units of 2^-1074, ties to even (R9): the quotient is
rounded at the last place a 53-bit significand has there, and a carry out of the significand carries
into the exponent field by itself. A magnitude too large for the format rounds to infinity. -/
def roundMagnitude (n d : Nat) : Nat :=
  let shift := Nat.log2 (n / d) - 52
  min (shift * 2 ^ 52 + roundDiv n (d * 2 ^ shift)) infMagnitude

/-- A number from its sign and the exact magnitude `n / d` units of 2^-1074, rounded once. -/
def round (neg : Bool) (n d : Nat) : Binary64 := ofMagnitude neg (roundMagnitude n d)

/-- The same number with the other sign. -/
def neg (x : Binary64) : Binary64 := ⟨x.bits ^^^ 0x8000000000000000#64⟩

/-- The sum of two finite numbers: an exact zero is −0 only where both operands are negative. -/
def addFinite (x y : Binary64) : Binary64 :=
  let s := x.toUnits + y.toUnits
  if s = 0 then zero (x.sign && y.sign) else round (decide (s < 0)) s.natAbs 1

/-- Addition, tagged with the operation it serves. -/
def addAs (op : FloatOp) (x y : Binary64) : Binary64 :=
  if x.isNaN || y.isNaN then nan op x y
  else if x.isInf then (if y.isInf && x.sign != y.sign then nan op x y else x)
  else if y.isInf then y
  else addFinite x y

/-- `fl(x + y)` (R9). -/
def add (x y : Binary64) : Binary64 := addAs .add x y

/-- `fl(x − y)` (R9). -/
def sub (x y : Binary64) : Binary64 := addAs .sub x y.neg

/-- `fl(x × y)` (R9). -/
def mul (x y : Binary64) : Binary64 :=
  let neg := x.sign != y.sign
  if x.isNaN || y.isNaN then nan .mul x y
  else if x.isInf then (if y.magnitude = 0 then nan .mul x y else inf neg)
  else if y.isInf then (if x.magnitude = 0 then nan .mul x y else inf neg)
  else round neg (x.units * y.units) (2 ^ 1074)

/-- `fl(x / y)` (R9). -/
def div (x y : Binary64) : Binary64 :=
  let neg := x.sign != y.sign
  if x.isNaN || y.isNaN then nan .div x y
  else if x.isInf then (if y.isInf then nan .div x y else inf neg)
  else if y.isInf then zero neg
  else if y.magnitude = 0 then (if x.magnitude = 0 then nan .div x y else inf neg)
  else round neg (x.units * 2 ^ 1074) y.units

/-- `float(n)`: the binary64 value of a non-negative integer, exact below 2^53 (R9). -/
def ofNat (n : Nat) : Binary64 := round false (n * 2 ^ 1074) 1

/-- A number's place in the order of the binary64 numbers that are not NaN; +0 and −0 have one place. -/
def rank (x : Binary64) : Int := if x.sign then -(x.magnitude : Int) else x.magnitude

/-- `x < y`: the IEEE comparison, false when either operand is NaN (R9). -/
def lt (x y : Binary64) : Bool := !x.isNaN && !y.isNaN && decide (x.rank < y.rank)

/-- `x ≤ y`: the IEEE comparison, false when either operand is NaN (R9). -/
def le (x y : Binary64) : Bool := !x.isNaN && !y.isNaN && decide (x.rank ≤ y.rank)

/-- +0.0, the reset value of every real register (R310). -/
def posZero : Binary64 := ⟨0#64⟩

end Sys2Proof.Binary64
end

