-- ==== Sys2Proof/Machine/Constants.lean ====
section
/-! DEFINITION. The fixed constants of the block (R6 of spec/00_scope.md), each with its value. -/

namespace Sys2Proof.Machine

/-- `BOOT_DELAY_MS` = 3000 (R6, R312). -/
def bootDelayMs : Nat := 3000

/-- `BUTTON_TIME_MS` = 3000 (R6, R183). -/
def buttonTimeMs : Nat := 3000

/-- `PWM_PERIOD_MS` = 1000 (R6, R240). -/
def pwmPeriodMs : Nat := 1000

/-- `PWM_BREAKS`: the upper bounds of the six slices, in ms (R6, R241). -/
def pwmBreaks : List Nat := [166, 333, 500, 666, 833, 1000]

/-- `DOOR_ALARM_WINDOW_MS` = 8000 (R6, R262). -/
def doorAlarmWindowMs : Nat := 8000

/-- `ALARM_CYCLE_MS` = 1000, the beeper's half-period (R6, R264). -/
def alarmCycleMs : Nat := 1000

/-- `BUZZER_INVERT` = 0 (R6, R51). -/
def buzzerInvert : Bool := false

/-- `T_MAX_K` = 1.0e6, the upper plausibility bound of one sample (R6, R153). -/
def tMaxK : Binary64 := ⟨0x412E848000000000#64⟩

/-- `KELVIN_OFFSET` = 273.15, the binary64 number nearest to it (R6, R11; the pattern is given in
section 1.2 of spec/95_test_vectors.md). -/
def kelvinOffset : Binary64 := ⟨0x4071126666666666#64⟩

/-- `1.0`, the numerator of the Steinhart–Hart conversion (R152). -/
def one : Binary64 := ⟨0x3FF0000000000000#64⟩

/-- A temperature threshold of the profile, a whole number of °C, as binary64 (R6, R9). Irreducible, so that
no proof about a comparison unfolds it to its bits by accident. -/
@[irreducible] def degC (n : Nat) : Binary64 := Binary64.ofNat n

end Sys2Proof.Machine
end

