-- ==== Sys2Proof/Syntax.lean ====
section
/-! DEFINITION. The commands of the block (R102 of spec/30_encoding.md), one constructor per row of
spec/opcode_table.json, and the lines of its assembler (R114, R115). -/

namespace Sys2Proof

/-- A command. NOP, RESET and the reserved command carry nothing: their other bits are ignored (R101). -/
inductive Instr where
  /-- `cmd` = 0: no state change (R132). -/
  | nop
  /-- `cmd` = 1: one scheduler tick (R131), with the raw ADC code, the button level (true = pressed),
  the door-switch level (true = open) and the time. -/
  | tick (raw : AdcCode) (btn door : Bool) (nowMs : Millis)
  /-- `cmd` = 2: the power-on reset (R133). -/
  | reset
  /-- `cmd` = 3: reserved, executes as NOP (R103). -/
  | reserved
  deriving DecidableEq, Repr

/-- A line of the assembler, its operands as written (R114), with the pseudo-instruction TICKN (R115). -/
inductive AsmLine where
  | nop
  | reset
  | tick (raw btn door nowMs : Nat)
  /-- `.bundle <hex52>`: the 52-bit bundle as written. -/
  | bundle (value : Nat)
  | tickn (n raw btn door t0 dt : Nat)
  deriving DecidableEq, Repr

end Sys2Proof
end

