-- ==== Sys2Proof/WellFormed.lean ====
section
/-! DEFINITION. The checks: of a parameter set (R7 of spec/00_scope.md), and of the operands of an
assembler line (R114, R115 of spec/30_encoding.md). An `Instr` needs no check: its operands have the
widths of R101 by their types, so every term of that type is well formed. -/

namespace Sys2Proof

/-- A finite number above zero. -/
def Binary64.isPositiveFinite (x : Binary64) : Bool := x.isFinite && Binary64.posZero.lt x

/-- The parameter constraints, checked before any step (R7). The constraint 190 ≤ x ≤ 212 on
`REFLOW_SUB2_LIMIT_C` implies that it is no NaN and no infinity. -/
def Params.wellFormed (p : Params) : Bool :=
  decide (1 ≤ p.nAvg) && decide (p.nAvg ≤ 65535)
    && decide (1 ≤ p.sensorFaultLimit) && decide (p.sensorFaultLimit ≤ 65535)
    && decide (2 ≤ p.adcMax) && decide (p.adcMax ≤ 65536)
    && p.vcc.isPositiveFinite && p.rSeries.isPositiveFinite
    && (decide (p.slice6MinPower = 5) || decide (p.slice6MinPower = 6))
    && Binary64.le ⟨0x4067C00000000000#64⟩ p.reflowSub2LimitC
    && Binary64.le p.reflowSub2LimitC ⟨0x406A800000000000#64⟩

/-- The operand ranges of a TICK line (R114): "An operand out of range is an assembly error". -/
def AsmLine.tickOperandsInRange (raw btn door nowMs : Nat) : Bool :=
  decide (raw < 2 ^ 16) && decide (btn < 2) && decide (door < 2) && decide (nowMs < 2 ^ 32)

/-- An assembler line all of whose operands are in range (R114, R115). `TICKN` has n ≥ 1 (R115) and its raw, btn
and door in the ranges of the TICKs it expands to (R114). R115 gives t0 and dt no range: that t0 has the range
of TICK's `now_ms` and dt any value is the model's choice (log entry 9, DESIGN CHOICE). -/
def AsmLine.wellFormed : AsmLine → Bool
  | .nop => true
  | .reset => true
  | .tick raw btn door nowMs => tickOperandsInRange raw btn door nowMs
  | .bundle value => decide (value < 2 ^ 52)
  | .tickn n raw btn door t0 _ => decide (1 ≤ n) && tickOperandsInRange raw btn door t0

end Sys2Proof
end

