-- ==== Sys2Proof/Decode.lean ====
section
/-! DEFINITION. Decoding and encoding of the 52-bit bundle (R100 to R112 of spec/30_encoding.md), the
assembler's lines (R114, R115), and the decoder the host reads the opcode table with. -/

namespace Sys2Proof

/-- `cmd` = bundle[1:0] (R112). -/
def cmdField (b : Bundle) : BitVec 2 := b.extractLsb' 0 2

/-- `btn` = bundle[2] (R112). -/
def btnField (b : Bundle) : Bool := b.getLsbD 2

/-- `door` = bundle[3] (R112). -/
def doorField (b : Bundle) : Bool := b.getLsbD 3

/-- `raw` = bundle[19:4] (R112). -/
def rawField (b : Bundle) : AdcCode := b.extractLsb' 4 16

/-- `now_ms` = bundle[51:20] (R112). -/
def nowMsField (b : Bundle) : Millis := b.extractLsb' 20 32

/-- The decoder: total, since every 52-bit value is a bundle (R100, R102, R112). -/
def decodeBundle (b : Bundle) : Instr :=
  if cmdField b = 0#2 then .nop
  else if cmdField b = 1#2 then .tick (rawField b) (btnField b) (doorField b) (nowMsField b)
  else if cmdField b = 2#2 then .reset
  else .reserved

/-- Why a number is not decoded. -/
inductive DecodeError where
  /-- The number has a bit above bit 51: "Bits above 51 do not exist" (R112), so it is no bundle. -/
  | notABundle
  deriving DecidableEq, Repr

/-- The bundle a number is, if it is one (R100, R112). -/
def bundleOfNat (w : Nat) : Except DecodeError Bundle :=
  if w < 2 ^ 52 then .ok (BitVec.ofNat 52 w) else .error .notABundle

/-- The decoder on any number, rejecting by name what is no bundle. -/
def decode (w : Nat) : Except DecodeError Instr := (bundleOfNat w).map decodeBundle

/-- One bit from a level. -/
def bitOfLevel (b : Bool) : BitVec 1 := if b then 1 else 0

/-- The encoder: a TICK is `{t[31:0], r[15:0], d, b, 01}`, NOP is 0 and RESET is 2 with the unused fields
zero (R114); the reserved command is `cmd` = 3 (R103), its unused fields zero likewise. -/
def encode : Instr → Bundle
  | .nop => 0
  | .tick raw btn door nowMs => nowMs ++ raw ++ bitOfLevel door ++ bitOfLevel btn ++ 1#2
  | .reset => 2
  | .reserved => 3

/-- The bundle the host means by an opcode-table word: the low `nbits` bits, every bit above them 0. -/
def tableBundle (nbits w : Nat) : Except DecodeError Bundle := bundleOfNat (w % 2 ^ nbits)

/-- The instruction the decoder reads from an opcode-table word; none where the word is no bundle. -/
def decodeTableWord (nbits w : Nat) : Option Instr :=
  match tableBundle nbits w with
  | .ok b => some (decodeBundle b)
  | .error _ => none

/-- Why a line is not assembled. -/
inductive AsmError where
  /-- "An operand out of range is an assembly error" (R114). -/
  | operandOutOfRange
  /-- The text is no line of R114 or R115. -/
  | malformed
  deriving DecidableEq, Repr

/-- A TICK of operands that are in range. -/
def tickOfNats (raw btn door nowMs : Nat) : Instr :=
  .tick (BitVec.ofNat 16 raw) (btn == 1) (door == 1) (BitVec.ofNat 32 nowMs)

/-- The bundles a line stands for: one each, and n for TICKN, whose i-th TICK has the time
(t0 + i·dt) mod 2^32 (R114, R115). -/
def assemble (line : AsmLine) : Except AsmError (List Bundle) :=
  if line.wellFormed then
    .ok (match line with
      | .nop => [encode .nop]
      | .reset => [encode .reset]
      | .tick raw btn door nowMs => [encode (tickOfNats raw btn door nowMs)]
      | .bundle value => [BitVec.ofNat 52 value]
      | .tickn n raw btn door t0 dt =>
        (List.range n).map fun i => encode (tickOfNats raw btn door ((t0 + i * dt) % 2 ^ 32)))
  else .error .operandOutOfRange

/-- The bundles of a program, one line after the other (R114). -/
def assembleProgram : List AsmLine → Except AsmError (List Bundle)
  | [] => .ok []
  | line :: rest => do
    let first ← assemble line
    let others ← assembleProgram rest
    return first ++ others

end Sys2Proof
end

