-- ==== Sys2Proof/Machine/ExampleInstance.lean ====
section
/-! DEFINITION. The parameter set that `State.reset` carries: the example set EX1 of
spec/95_test_vectors.md (log entry 2). -/

namespace Sys2Proof.Machine

/-- `LIN` at the codes that section 1.1 of spec/95_test_vectors.md lists, for the set EX1. -/
def linTableEx1 : List (AdcCode × Binary64) :=
  [ (1, ⟨0x406c6841a6fdb215#64⟩), (46, ⟨0x40729567a136cae5#64⟩), (100, ⟨0x4073d0c6345e07a4#64⟩),
    (110, ⟨0x4073fb7b82cb415a#64⟩), (120, ⟨0x40742371ab8c75ce#64⟩), (130, ⟨0x40744917827ba218#64⟩),
    (200, ⟨0x407525aa6ae20024#64⟩), (300, ⟨0x40761db21c41fac8#64⟩), (450, ⟨0x4077605ba0b72a9a#64⟩),
    (512, ⟨0x4077e42ae8ef5f3c#64⟩), (600, ⟨0x4078a95926c6c57b#64⟩), (700, ⟨0x4079a985c94a8366#64⟩) ]
  ++
  [ (720, ⟨0x4079e3a2758f6bce#64⟩), (750, ⟨0x407a4110f152706b#64⟩), (800, ⟨0x407af32caf3cc2fa#64⟩),
    (850, ⟨0x407bd031ea1d1383#64⟩), (870, ⟨0x407c3b38a9cd30af#64⟩), (875, ⟨0x407c583e242499d9#64⟩),
    (880, ⟨0x407c764edaf4586f#64⟩), (900, ⟨0x407cfad14cd91d3c#64⟩), (940, ⟨0x407e5ce8a8f324b3#64⟩),
    (950, ⟨0x407ed3dd2a349323#64⟩), (1023, ⟨0x408d617756cf9db7#64⟩) ]

/-- The parameters `State.reset` carries (log entry 2): the values and defaults of R6, and for the OPEN
ones the example set EX1 of spec/95_test_vectors.md (DESIGN CHOICE, unsafe: the spec gives no values;
no statement rests on them). -/
def paramsEx1 : Params :=
  { nAvg := 100
    sensorFaultLimit := 100
    adcMax := 1024
    vcc := ⟨0x400A666666666666#64⟩
    rSeries := ⟨0x40B25C0000000000#64⟩
    shA := ⟨0x3F480FDF6CA04611#64⟩
    shB := ⟨0x3F2C472877E57ED5#64⟩
    shC := ⟨0x3E798B2124E124C5#64⟩
    linTable := linTableEx1
    slice6MinPower := 5
    reflowSub2LimitC := ⟨0x4067C00000000000#64⟩
    topRelayInvert := false
    botRelayInvert := false }

end Sys2Proof.Machine
end

