-- ==== Sys2Proof/Machine/State.lean ====
section
/-! DEFINITION. The state of the block (spec/10_state.md), grouped by the unit that writes each register
(R56), the ways a step can stop, and the state after reset (R310 of spec/70_reset_and_hazards.md). -/

namespace Sys2Proof.Machine

/-- The six stages (R40, R104); the codes 100 and 101 are unrepresentable (R105). -/
inductive Stage where
  | off | hold | preheat | soak | reflow | cool
  deriving DecidableEq, Repr

/-- The phases of the boot sequence (R53, R109); the code 3 is unrepresentable. -/
inductive BootPhase where
  | waitFirst | booting | run
  deriving DecidableEq, Repr

/-- The causes of the block's one exception, SensorFault (R281). -/
inductive SensorFault where
  /-- `raw` = 0: the divider formula divides by zero. -/
  | rawZero
  /-- `raw` ≥ `ADC_MAX`: outside the ADC range. -/
  | rawHigh
  /-- `LIN(raw)` is NaN, or ≤ 0, or ≥ `T_MAX_K`. -/
  | badResult
  deriving DecidableEq, Repr

/-- The status of the most recent sample (R39, R108). -/
inductive SampleStatus where
  /-- A valid sample, or no sample yet. -/
  | ok
  | fault (code : SensorFault)
  deriving DecidableEq, Repr

/-- An event of a step (R110). -/
inductive Event where
  /-- `DIAG(value)`: the new `temp_k`, at each emission. -/
  | diag (value : Binary64)
  /-- `WARN(code)`: at each invalid sample. -/
  | warn (code : SensorFault)
  deriving DecidableEq, Repr

/-- The boot sequencer's registers (R53). -/
structure BootSequencer where
  /-- `boot_phase`. -/
  phase : BootPhase
  /-- `boot_start_ms`: the `now_ms` of the first TICK after reset. -/
  startMs : Millis
  deriving DecidableEq, Repr

/-- The Temperature Estimator's registers (R33 to R39). -/
structure Estimator where
  /-- `acc`: the sum of the valid samples of the current window. -/
  acc : Binary64
  /-- `cnt`: the number of valid samples in `acc`. -/
  cnt : Counter
  /-- `temp_k`: the published temperature, in Kelvin. -/
  tempK : Binary64
  /-- `temp_valid`: a mean has been published since reset. -/
  tempValid : Bool
  /-- `bad_cnt`: consecutive invalid samples, saturating at `SENSOR_FAULT_LIMIT`. -/
  badCnt : Counter
  /-- `sensor_fault`: the latched sensor fault. -/
  sensorFault : Bool
  /-- `sample_status`: the status of the most recent sample. -/
  sampleStatus : SampleStatus
  deriving DecidableEq, Repr

/-- A checkpoint register with its valid flag (R45). -/
structure Checkpoint where
  /-- Whole seconds since the run's start. -/
  seconds : Seconds
  valid : Bool
  deriving DecidableEq, Repr

/-- The registers that `clear_record` clears (R199): what the block records of one run. -/
structure RunRecord where
  /-- `run_start_ms` (R44). -/
  runStartMs : Millis
  /-- `el_50`, `v_50`. -/
  el50 : Checkpoint
  /-- `el_150`, `v_150`. -/
  el150 : Checkpoint
  /-- `el_180up`, `v_180up`. -/
  el180up : Checkpoint
  /-- `el_180dw`, `v_180dw`. -/
  el180dw : Checkpoint
  /-- `el_peak`, `v_peak`. -/
  elPeak : Checkpoint
  /-- `max_temp_c`, in °C (R43). -/
  maxTempC : Binary64
  /-- `door_open_ms` (R46). -/
  doorOpenMs : Millis
  /-- `door_open_valid` (R46). -/
  doorOpenValid : Bool
  /-- `door_alarm_en` (R47). -/
  doorAlarmEn : Bool
  deriving DecidableEq, Repr

/-- The Stage Controller's registers, its button part among them (R40 to R48). -/
structure StageController where
  /-- `stage`. -/
  stage : Stage
  /-- `substage`. -/
  substage : Substage
  /-- `top_power`. -/
  topPower : Power
  /-- `bot_power`. -/
  botPower : Power
  /-- The run record. -/
  record : RunRecord
  /-- `press_start_ms`. -/
  pressStartMs : Millis
  deriving DecidableEq, Repr

/-- The PWM Duty Driver's registers (R49, R51). -/
structure PwmDriver where
  /-- `pwm_start_ms`. -/
  startMs : Millis
  /-- `top_relay_on`. -/
  topRelayOn : Bool
  /-- `bot_relay_on`. -/
  botRelayOn : Bool
  deriving DecidableEq, Repr

/-- The registers of the door alarm and the beeper (R50, R51). -/
structure AlarmMonitor where
  /-- `alarm_active`. -/
  alarmActive : Bool
  /-- `beep_start_ms`. -/
  beepStartMs : Millis
  /-- `buzzer_on`. -/
  buzzerOn : Bool
  deriving DecidableEq, Repr

/-- The state: the registers of R33 to R53, the constants of the instance, and two fields of the model
that stand for the host's side, `inbox` and `events`. -/
structure State where
  /-- The constants of the instance (R6); no command writes them (R89). -/
  params : Params
  boot : BootSequencer
  est : Estimator
  ctl : StageController
  pwm : PwmDriver
  alarm : AlarmMonitor
  /-- The MODEL's field (log entry 6): the bundles the host has issued and the block has not yet taken,
  oldest first. -/
  inbox : List Bundle
  /-- The MODEL's field (log entry 7): the event list of the last command (R134). No rule reads it. -/
  events : List Event
  deriving DecidableEq, Repr

/-- The ways a step faults: none. "No step faults, blocks or refuses" (R130); a SensorFault is a status,
an event and a latch, never a stop (R280). -/
inductive Fault where
  deriving DecidableEq, Repr

/-- The ways a step is refused. -/
inductive Refusal where
  /-- An arm of `exec` whose instruction has no meaning yet. Safe. No arm is refused in this model. -/
  | notModelled (mnemonic : String)
  /-- Raised by `step`, before a command is run, where the parameter set fails R7: it "describes no
  instance of the block; a model refuses it". Safe. -/
  | notAnInstance
  deriving DecidableEq, Repr

/-- A checkpoint that has not been recorded (R45, R310). -/
def Checkpoint.cleared : Checkpoint := { seconds := 0, valid := false }

/-- The run record after `clear_record` (R199), which is its reset value (R310). -/
def RunRecord.cleared : RunRecord :=
  { runStartMs := 0
    el50 := .cleared
    el150 := .cleared
    el180up := .cleared
    el180dw := .cleared
    elPeak := .cleared
    maxTempC := .posZero
    doorOpenMs := 0
    doorOpenValid := false
    doorAlarmEn := false }

def BootSequencer.reset : BootSequencer := { phase := .waitFirst, startMs := 0 }

def Estimator.reset : Estimator :=
  { acc := .posZero, cnt := 0, tempK := .posZero, tempValid := false
    badCnt := 0, sensorFault := false, sampleStatus := .ok }

def StageController.reset : StageController :=
  { stage := .off, substage := 0, topPower := 0, botPower := 0, record := .cleared, pressStartMs := 0 }

def PwmDriver.reset : PwmDriver := { startMs := 0, topRelayOn := false, botRelayOn := false }

def AlarmMonitor.reset : AlarmMonitor := { alarmActive := false, beepStartMs := 0, buzzerOn := false }

/-- The state after reset of an instance with these parameters, no command issued and no event
emitted (R310, R311). -/
def State.resetOf (p : Params) : State :=
  { params := p, boot := .reset, est := .reset, ctl := .reset, pwm := .reset, alarm := .reset
    inbox := [], events := [] }

/-- The machine right after reset (R310): every register at the value the spec gives. -/
def State.reset : State := .resetOf paramsEx1

end Sys2Proof.Machine
end

