-- ==== Sys2Proof/Machine/Operands.lean ====
section
/-! DEFINITION. The operand forms of the commands and phases: time differences, elapsed seconds, °C
(R8, R11 of spec/00_scope.md, R140 of spec/40_commands.md), and the codes of the value encodings
(R104 to R109 of spec/30_encoding.md). -/

namespace Sys2Proof.Machine

/-- `now -32 since` (R8, R140): the elapsed time in ms, modulo 2^32, never negative. -/
def elapsedMs (now since : Millis) : Nat := (now - since).toNat

/-- `(now -32 since) div 1000` (R140, R204): whole seconds, rounded down. -/
def elapsedSeconds (now since : Millis) : Seconds := BitVec.ofNat 32 (elapsedMs now since / 1000)

/-- `t = fl(temp_k − 273.15)` (R11). -/
def celsius (tempK : Binary64) : Binary64 := tempK.sub kelvinOffset

/-- The stage's code, 3-bit two's complement (R104). -/
def Stage.code : Stage → BitVec 3
  | .off => 0b110
  | .hold => 0b111
  | .preheat => 0b000
  | .soak => 0b001
  | .reflow => 0b010
  | .cool => 0b011

/-- The stage's signed value, −2 to 3 (R104, R140). -/
def Stage.value (s : Stage) : Int := s.code.toInt

/-- "stage < 0" (R12, R104): the stage is Off or Hold. -/
def Stage.isNegative (s : Stage) : Bool := s.code.msb

/-- The boot phase's code (R109). -/
def BootPhase.code : BootPhase → BitVec 2
  | .waitFirst => 0
  | .booting => 1
  | .run => 2

/-- The code of a SensorFault, which WARN carries (R108, R281). -/
def SensorFault.code : SensorFault → BitVec 2
  | .rawZero => 1
  | .rawHigh => 2
  | .badResult => 3

/-- The sample status's code (R108). -/
def SampleStatus.code : SampleStatus → BitVec 2
  | .ok => 0
  | .fault c => c.code

end Sys2Proof.Machine
end

