-- ==== Sys2Proof/Machine/Linearizer.lean ====
section
/-! DEFINITION. `LIN`, the linearizer (R152 of spec/41_estimator.md): a configuration function of the
block, given as a table of values and, at a code the table does not list, by the reference definition
over the platform's logarithm (log entry 3). -/

namespace Sys2Proof.Machine

/-- The platform's logarithm with the special cases R152 gives, "NaN if rth < 0, −inf if rth = 0"; a NaN
operand gives a NaN. Elsewhere it is the free value `Config.ln` (log entry 4). -/
def platformLn (x : Binary64) : Binary64 :=
  if x.isNaN then .nan .ln x x
  else if x.magnitude = 0 then .inf true
  else if x.sign then .nan .ln x x
  else Config.ln x

/-- `vout` of the reference definition (R152): the divider's output voltage. -/
def linVout (p : Params) (raw : AdcCode) : Binary64 :=
  ((Binary64.ofNat raw.toNat).mul p.vcc).div (.ofNat p.adcMax)

/-- `rth` of the reference definition (R152): the thermistor's resistance. -/
def linRth (p : Params) (raw : AdcCode) : Binary64 :=
  ((p.vcc.mul p.rSeries).div (linVout p raw)).sub p.rSeries

/-- `den` of the reference definition (R152), from `L` = ln(rth): the Steinhart–Hart sum, in the order
written there. -/
def linDen (p : Params) (l : Binary64) : Binary64 :=
  (p.shA.add (p.shB.mul l)).add (p.shC.mul ((l.mul l).mul l))

/-- `LIN_ref` (R152), every operation a single binary64 operation. -/
def linRef (p : Params) (raw : AdcCode) : Binary64 :=
  one.div (linDen p (platformLn (linRth p raw)))

/-- `LIN` (R152): a total function from a 16-bit code to a binary64 value. -/
def lin (p : Params) (raw : AdcCode) : Binary64 :=
  match p.linTable.lookup raw with
  | some t => t
  | none => linRef p raw

end Sys2Proof.Machine
end

