-- ==== Sys2Proof/Machine/Flags.lean ====
section
/-! DEFINITION. What sets each status flag (R54 of spec/10_state.md): the sample guard, the sensor-fault
latch, the start condition, the checkpoint latches, the raw and the suppressed alarm, `booting`. -/

namespace Sys2Proof.Machine

/-- The sample guard (R153): a valid sample's temperature in Kelvin, or the cause of the SensorFault. A
NaN from `LIN` fails both comparisons. -/
def sampleGuard (p : Params) (raw : AdcCode) : Except SensorFault Binary64 :=
  if raw = 0 then .error .rawZero
  else if p.adcMax ≤ raw.toNat then .error .rawHigh
  else if Binary64.posZero.lt (lin p raw) && (lin p raw).lt tMaxK then .ok (lin p raw)
  else .error .badResult

/-- `sensor_fault` after an invalid sample (R157): set when `bad_cnt` has reached the limit, and never
cleared here. -/
def latchedFault (p : Params) (badCnt : Counter) (before : Bool) : Bool :=
  before || decide (p.sensorFaultLimit ≤ badCnt.toNat)

/-- The three conditions of a start, Hold→Preheat (R183). -/
def startCondition (e : Estimator) (pressStartMs now : Millis) : Bool :=
  decide (buttonTimeMs ≤ elapsedMs now pressStartMs) && e.tempValid && !e.sensorFault

/-- A checkpoint that latches once (R186 to R188, R197): recorded where its condition holds and it has
not been recorded in this run. -/
def Checkpoint.latch (c : Checkpoint) (condition : Bool) (es : Seconds) : Checkpoint :=
  if condition && !c.valid then { seconds := es, valid := true } else c

/-- The raw alarm (R261; 90_conflicts.md C1): `door XOR door_alarm_en`. -/
def rawAlarm (door : Bool) (c : StageController) : Bool := door ^^ c.record.doorAlarmEn

/-- The Cooldown suppression (R262). -/
def alarmSuppressed (now : Millis) (c : StageController) : Bool :=
  decide (c.stage = .cool) && c.record.doorOpenValid
    && decide (doorAlarmWindowMs ≤ elapsedMs now c.record.doorOpenMs)

/-- `booting` (R52): 1 iff `boot_phase` is not RUN. -/
def booting (b : BootSequencer) : Bool := decide (b.phase ≠ .run)

end Sys2Proof.Machine
end

