-- ==== Sys2Proof/Machine/Ops.lean ====
section
/-! DEFINITION. The named operations over State: one update per unit's registers, the event output, taking
the block's one exception, and taking a command from the host. -/

namespace Sys2Proof.Machine

def State.setBoot (s : State) (b : BootSequencer) : State := { s with boot := b }

def State.setEst (s : State) (e : Estimator) : State := { s with est := e }

def State.setCtl (s : State) (c : StageController) : State := { s with ctl := c }

def State.setPwm (s : State) (d : PwmDriver) : State := { s with pwm := d }

def State.setAlarm (s : State) (a : AlarmMonitor) : State := { s with alarm := a }

def State.setInbox (s : State) (bs : List Bundle) : State := { s with inbox := bs }

/-- `events <- []` (R131): every command begins with an empty event list (R134). -/
def State.clearEvents (s : State) : State := { s with events := [] }

/-- `emit EVENT(args)` (R10): appends an event to the step's event output. -/
def State.emit (s : State) (e : Event) : State := { s with events := s.events ++ [e] }

/-- TAKING THE EXCEPTION: `raise SensorFault(code)` records the code in `sample_status` and emits
`WARN(code)` (R10, R281). It saves no state, changes no mode and sends control nowhere (R285): the step
goes on. There is no return from it, since nothing was entered (R286). -/
def State.raiseSensorFault (s : State) (code : SensorFault) : State :=
  (s.setEst { s.est with sampleStatus := .fault code }).emit (.warn code)

/-- Every register to its reset value (R133). The constants of the instance are no registers and stay
(R310); so do the commands the host has issued and the block has not yet taken (log entry 6). -/
def State.resetRegisters (s : State) : State := (State.resetOf s.params).setInbox s.inbox

/-- The effect of NOP and of the reserved command (R132, R103): no register changes, and the event list
returned is empty. -/
def State.noOperation (s : State) : State := s.clearEvents

/-- The next command the host has issued, and the state without it (R130: a step takes one bundle);
none where the host has issued no command. -/
def State.takeBundle (s : State) : Option (Bundle × State) :=
  match s.inbox with
  | [] => none
  | b :: rest => some (b, s.setInbox rest)

/-- The host issues a command that the block takes before any it has not yet taken. -/
def State.issueFirst (s : State) (b : Bundle) : State := s.setInbox (b :: s.inbox)

/-- The check a model makes before any step (R7). -/
def State.isInstance (s : State) : Bool := s.params.wellFormed

end Sys2Proof.Machine
end

