-- ==== Sys2Proof/Machine/AlarmMonitor.lean ====
section
/-! DEFINITION. Phases 3 and 5 of TICK, the door alarm and the beeper (R260 to R265 of spec/44_alarm.md). -/

namespace Sys2Proof.Machine

/-- The gated alarm (R260, R263). -/
def gatedAlarm (door : Bool) (now : Millis) (c : StageController) : Bool :=
  rawAlarm door c && !alarmSuppressed now c

/-- ALARM(door, now) (R260). -/
def alarm (door : Bool) (now : Millis) (s : State) : State :=
  s.setAlarm { s.alarm with alarmActive := gatedAlarm door now s.ctl }

/-- The beep-cycle timestamp after the restart test (R264): it restarts at `now` after a full period. -/
def beepCycleStart (now start : Millis) : Millis :=
  if 2 * alarmCycleMs ≤ elapsedMs now start then now else start

/-- The beeper's registers after BEEP(now) (R264, R265). -/
def beeped (now : Millis) (a : AlarmMonitor) : AlarmMonitor :=
  let start := beepCycleStart now a.beepStartMs
  { a with
    beepStartMs := start
    buzzerOn := a.alarmActive && decide (elapsedMs now start < alarmCycleMs) }

/-- BEEP(now) (R264). -/
def beep (now : Millis) (s : State) : State := s.setAlarm (beeped now s.alarm)

end Sys2Proof.Machine
end

