-- ==== Sys2Proof/Machine/Boot.lean ====
section
/-! DEFINITION. The boot sequence (R312, R313 of spec/70_reset_and_hazards.md). -/

namespace Sys2Proof.Machine

/-- BOOT_END(now) (R313): the three timers start. -/
def bootEnd (now : Millis) (s : State) : State :=
  { s with
    pwm := { s.pwm with startMs := now }
    alarm := { s.alarm with beepStartMs := now }
    ctl := { s.ctl with pressStartMs := now } }

/-- BOOT_STEP(now) (R312). Once the boot has ended it is not run (R131), and is the identity. -/
def bootStep (now : Millis) (s : State) : State :=
  match s.boot.phase with
  | .waitFirst => s.setBoot { phase := .booting, startMs := now }
  | .booting =>
    if elapsedMs now s.boot.startMs < bootDelayMs then s
    else (bootEnd now s).setBoot { s.boot with phase := .run }
  | .run => s

end Sys2Proof.Machine
end

