-- ==== Sys2Proof/Machine/Estimator.lean ====
section
/-! DEFINITION. Phase 1 of TICK, the Temperature Estimator (R150 to R157 of spec/41_estimator.md). -/

namespace Sys2Proof.Machine

/-- Accumulation of a valid sample (R154), its status OK (R153). -/
def accumulate (t : Binary64) (e : Estimator) : Estimator :=
  { e with acc := e.acc.add t, cnt := e.cnt + 1, badCnt := 0, sampleStatus := .ok }

/-- `fl(acc / float(N_AVG))` (R155). -/
def windowMean (p : Params) (e : Estimator) : Binary64 := e.acc.div (.ofNat p.nAvg)

/-- Emission (R155): the mean becomes the published temperature, and a new window begins. -/
def publishMean (p : Params) (e : Estimator) : Estimator :=
  { e with tempK := windowMean p e, tempValid := true, acc := .posZero, cnt := 0 }

/-- The estimator's registers after a valid sample (R154), a full window emitted (R155). -/
def acceptedEstimator (p : Params) (t : Binary64) (e : Estimator) : Estimator :=
  let e1 := accumulate t e
  if e1.cnt.toNat = p.nAvg then publishMean p e1 else e1

/-- `bad_cnt <- min(bad_cnt + 1, SENSOR_FAULT_LIMIT)` (R156) and the latch (R157). -/
def countInvalid (p : Params) (e : Estimator) : Estimator :=
  let bad : Counter := BitVec.ofNat 16 (min (e.badCnt.toNat + 1) p.sensorFaultLimit)
  { e with badCnt := bad, sensorFault := latchedFault p bad e.sensorFault }

/-- A valid sample: `DIAG(temp_k)` is emitted where the window is full (R154, R155). -/
def acceptSample (t : Binary64) (s : State) : State :=
  let s1 := s.setEst (acceptedEstimator s.params t s.est)
  if (accumulate t s.est).cnt.toNat = s.params.nAvg then s1.emit (.diag s1.est.tempK) else s1

/-- An invalid sample: the SensorFault is taken and counted (R156, R157). -/
def rejectSample (code : SensorFault) (s : State) : State :=
  let s1 := s.raiseSensorFault code
  s1.setEst (countInvalid s.params s1.est)

/-- ESTIMATE(raw) (R150). -/
def estimate (raw : AdcCode) (s : State) : State :=
  match sampleGuard s.params raw with
  | .ok t => acceptSample t s
  | .error code => rejectSample code s

end Sys2Proof.Machine
end

