-- ==== Sys2Proof/Machine/PwmDriver.lean ====
section
/-! DEFINITION. Phase 4 of TICK, the PWM Duty Driver (R240 to R244 of spec/43_pwm_driver.md). -/

namespace Sys2Proof.Machine

/-- SLICE(e) (R241): the 1-based index of the first row whose bound exceeds the elapsed time. -/
def slice (e : Nat) : Nat := pwmBreaks.findIdx (fun bound => decide (e < bound)) + 1

/-- ON(p, k) (R242, R243). -/
def relayOn (slice6MinPower : Nat) (power : Power) (k : Nat) : Bool :=
  if k = 6 then decide (slice6MinPower ≤ power.val) else decide (k ≤ power.val)

/-- The cycle-start timestamp after the restart test (R240): it restarts at `now`. -/
def pwmCycleStart (now start : Millis) : Millis :=
  if pwmPeriodMs ≤ elapsedMs now start then now else start

/-- The PWM Duty Driver's registers after PWM(now) (R240, R244). -/
def driven (p : Params) (top bot : Power) (now : Millis) (d : PwmDriver) : PwmDriver :=
  let start := pwmCycleStart now d.startMs
  let k := slice (elapsedMs now start)
  { startMs := start
    topRelayOn := relayOn p.slice6MinPower top k
    botRelayOn := relayOn p.slice6MinPower bot k }

/-- PWM(now) (R240). -/
def pwm (now : Millis) (s : State) : State :=
  s.setPwm (driven s.params s.ctl.topPower s.ctl.botPower now s.pwm)

end Sys2Proof.Machine
end

