-- ==== Sys2Proof/Machine/StageController.lean ====
section
/-! DEFINITION. Phase 2 of TICK, the Stage Controller with the button part of the Input Monitor (R180 to
R204 of spec/42_stage_controller.md). -/

namespace Sys2Proof.Machine

/-- A row of the profile table: the sub-stage and the two powers (R189 to R193). -/
def setOutputs (c : StageController) (sub : Substage) (top bot : Power) : StageController :=
  { c with substage := sub, topPower := top, botPower := bot }

/-- Sub-stage and powers 0 (R185, R194, R195, R198). -/
def outputsOff (c : StageController) : StageController := setOutputs c 0 0 0

/-- `clear_record()` (R199). -/
def clearRecord (c : StageController) : StageController := { c with record := .cleared }

/-- The start of a run, Hold→Preheat (R183). -/
def startRun (now : Millis) (c : StageController) : StageController :=
  { c with record := { RunRecord.cleared with runStartMs := now }, stage := .preheat }

/-- A released button (R181): the hold timer restarts, and Off or Hold becomes Off. -/
def buttonReleased (now : Millis) (c : StageController) : StageController :=
  { c with
    pressStartMs := now
    stage := if c.stage = .off ∨ c.stage = .hold then .off else c.stage }

/-- The button part (R181 to R184). -/
def buttonPart (e : Estimator) (btn : Bool) (now : Millis) (c : StageController) : StageController :=
  if btn = false then buttonReleased now c
  else if c.stage = .off then { c with stage := .hold }
  else if c.stage = .hold && startCondition e c.pressStartMs now then startRun now c
  else c

/-- The rising checkpoints of Preheat and Soak, in order (R186 to R188). -/
def checkpointsUp (t : Binary64) (es : Seconds) (c : StageController) : StageController :=
  { c with record := { c.record with
      el50 := c.record.el50.latch ((degC 50).le t) es
      el150 := c.record.el150.latch ((degC 150).le t) es
      el180up := c.record.el180up.latch ((degC 180).le t) es } }

/-- The Preheat table (R189) and Preheat→Soak (R190). A temperature that is a NaN, which no run publishes
(R57 item 6), meets no row and no exit. -/
def preheatTable (t : Binary64) (c : StageController) : StageController :=
  if t.lt (degC 40) then setOutputs c 1 0 5
  else if t.lt (degC 100) then setOutputs c 2 1 5
  else if t.lt (degC 140) then setOutputs c 3 3 6
  else if (degC 140).le t then { c with stage := .soak }
  else c

/-- The Soak table (R191) and Soak→Reflow (R192). -/
def soakTable (t : Binary64) (c : StageController) : StageController :=
  if t.lt (degC 150) then setOutputs c 1 1 4
  else if t.lt (degC 170) then setOutputs c 2 2 5
  else if t.lt (degC 180) then setOutputs c 3 2 6
  else if (degC 180).le t then { c with stage := .reflow }
  else c

/-- Reflow→Cool (R194): the door-open timestamp is latched, the door alarm enabled, the heaters off. -/
def enterCool (now : Millis) (c : StageController) : StageController :=
  { outputsOff c with
    stage := .cool
    record := { c.record with doorOpenMs := now, doorOpenValid := true, doorAlarmEn := true } }

/-- The Reflow table (R193) and Reflow→Cool (R194). -/
def reflowTable (p : Params) (t : Binary64) (now : Millis) (c : StageController) : StageController :=
  if t.lt (degC 190) then setOutputs c 1 3 6
  else if t.lt p.reflowSub2LimitC then setOutputs c 2 3 6
  else if t.lt (degC 212) then setOutputs c 3 3 6
  else if (degC 212).le t then enterCool now c
  else c

/-- Peak tracking in Cool (R196). -/
def trackPeak (t : Binary64) (es : Seconds) (c : StageController) : StageController :=
  if c.record.maxTempC.lt t then
    { c with record := { c.record with maxTempC := t, elPeak := { seconds := es, valid := true } } }
  else c

/-- Checkpoint `el_180dw` (R197). -/
def checkpointDown (t : Binary64) (es : Seconds) (c : StageController) : StageController :=
  { c with record := { c.record with el180dw := c.record.el180dw.latch (t.le (degC 180)) es } }

/-- `end_run()` (R198). -/
def endRun (c : StageController) : StageController :=
  clearRecord { outputsOff c with stage := .off }

/-- COOL(t, es): outputs, peak, checkpoint, end of the run, in that order (R195 to R198). -/
def coolTable (t : Binary64) (es : Seconds) (c : StageController) : StageController :=
  let c1 := checkpointDown t es (trackPeak t es (outputsOff c))
  if t.le (degC 50) then endRun c1 else c1

/-- The profile part, selected by the stage at the start of the phase, never by one written in it (R185
to R198, R201). -/
def profilePart (p : Params) (s0 : Stage) (t : Binary64) (es : Seconds) (now : Millis)
    (c : StageController) : StageController :=
  match s0 with
  | .off => outputsOff c
  | .hold => outputsOff c
  | .preheat => preheatTable t (checkpointsUp t es c)
  | .soak => soakTable t (checkpointsUp t es c)
  | .reflow => reflowTable p t now c
  | .cool => coolTable t es c

/-- The sensor-fault override (R200). -/
def safetyOverride (sensorFault : Bool) (c : StageController) : StageController :=
  if sensorFault then { c with topPower := 0, botPower := 0 } else c

/-- The Stage Controller's registers after CONTROL(btn, now) (R180): the stage `s0`, the temperature and
the elapsed seconds are taken once, at the start of the phase (R201, R204). -/
def controlled (p : Params) (e : Estimator) (btn : Bool) (now : Millis) (c : StageController) :
    StageController :=
  let t := celsius e.tempK
  let es := elapsedSeconds now c.record.runStartMs
  safetyOverride e.sensorFault (profilePart p c.stage t es now (buttonPart e btn now c))

/-- CONTROL(btn, now) (R180). -/
def control (btn : Bool) (now : Millis) (s : State) : State :=
  s.setCtl (controlled s.params s.est btn now s.ctl)

end Sys2Proof.Machine
end

