-- ==== Sys2Proof/Machine/Commands.lean ====
section
/-! DEFINITION. The meanings of the four commands (R130 to R135 of spec/40_commands.md, R103 of
spec/30_encoding.md). -/

namespace Sys2Proof.Machine

/-- BODY(raw, btn, door, now): the five phases in their fixed order, each seeing every register write of
the phases before it (R135, R136). -/
def body (raw : AdcCode) (btn door : Bool) (now : Millis) (s : State) : State :=
  beep now (pwm now (alarm door now (control btn now (estimate raw s))))

/-- The state in which TICK decides whether BODY runs: after BOOT_STEP where the boot has not ended
(R131, R312). -/
def afterBoot (now : Millis) (s : State) : State :=
  if s.boot.phase = .run then s else bootStep now s

/-- The state after TICK (R131): the BOOT_STEP that ends the boot falls through to BODY. -/
def ticked (raw : AdcCode) (btn door : Bool) (now : Millis) (s : State) : State :=
  let s1 := afterBoot now s.clearEvents
  if s1.boot.phase = .run then body raw btn door now s1 else s1

/-- NOP (R132). -/
def execNop (s : State) : Host.Outcome State Fault Refusal := .next s.noOperation

/-- TICK (R131). -/
def execTick (raw : AdcCode) (btn door : Bool) (nowMs : Millis) (s : State) :
    Host.Outcome State Fault Refusal := .next (ticked raw btn door nowMs s)

/-- RESET (R133). -/
def execReset (s : State) : Host.Outcome State Fault Refusal := .next s.resetRegisters

/-- The reserved command, which "performs exactly the NOP" (R103). -/
def execReserved (s : State) : Host.Outcome State Fault Refusal := .next s.noOperation

end Sys2Proof.Machine
end

