-- ==== Sys2Proof/Machine/Step.lean ====
section
/-! DEFINITION. One step: the block takes the next command the host has issued, decodes it and performs
it (R130 of spec/40_commands.md). -/

namespace Sys2Proof.Machine

/-- One step. Where the host has issued no command there is no step to take and the block holds its state
(R293, log entry 6). Before a command is run the parameters are checked, and a set that describes no
instance of the block is refused (R7). -/
def step (s : State) : Host.Outcome State Fault Refusal :=
  match s.takeBundle with
  | none => .next s
  | some (b, s1) => if s.isInstance then exec (decodeBundle b) s1 else .refused .notAnInstance

/-- The state in which the very next step runs an opcode-table word: the host has issued it, and the
block takes it first. A word that is no bundle cannot be issued. -/
def State.withFetchWord (s : State) (nbits w : Nat) : State :=
  match tableBundle nbits w with
  | .ok b => s.issueFirst b
  | .error _ => s

end Sys2Proof.Machine
end

