-- ==== Sys2Proof/Machine/Ports.lean ====
section
/-! DEFINITION. The status ports and the pins (R51, R52 of spec/10_state.md, R81 of spec/20_memory.md):
functions of State, visible between any two steps, read without side effect (R83). -/

namespace Sys2Proof.Machine

/-- The status output ports (R52), each with the width of its register; a real port carries the binary64
pattern (R81). -/
structure Ports where
  tempK : BitVec 64
  tempValid : Bool
  stage : BitVec 3
  substage : BitVec 2
  topPower : BitVec 3
  botPower : BitVec 3
  alarmActive : Bool
  sensorFault : Bool
  sampleStatus : BitVec 2
  maxTempC : BitVec 64
  el50 : Seconds
  v50 : Bool
  el150 : Seconds
  v150 : Bool
  el180up : Seconds
  v180up : Bool
  el180dw : Seconds
  v180dw : Bool
  elPeak : Seconds
  vPeak : Bool
  doorOpenMs : Millis
  doorOpenValid : Bool
  doorAlarmEn : Bool
  booting : Bool
  deriving DecidableEq, Repr

/-- The levels of the three output pins (R51). -/
structure Pins where
  topRelay : Bool
  botRelay : Bool
  buzzer : Bool
  deriving DecidableEq, Repr

/-- The status ports: read-only copies of registers (R52). -/
def State.ports (s : State) : Ports :=
  { tempK := s.est.tempK.bits
    tempValid := s.est.tempValid
    stage := s.ctl.stage.code
    substage := BitVec.ofNat 2 s.ctl.substage.val
    topPower := BitVec.ofNat 3 s.ctl.topPower.val
    botPower := BitVec.ofNat 3 s.ctl.botPower.val
    alarmActive := s.alarm.alarmActive
    sensorFault := s.est.sensorFault
    sampleStatus := s.est.sampleStatus.code
    maxTempC := s.ctl.record.maxTempC.bits
    el50 := s.ctl.record.el50.seconds
    v50 := s.ctl.record.el50.valid
    el150 := s.ctl.record.el150.seconds
    v150 := s.ctl.record.el150.valid
    el180up := s.ctl.record.el180up.seconds
    v180up := s.ctl.record.el180up.valid
    el180dw := s.ctl.record.el180dw.seconds
    v180dw := s.ctl.record.el180dw.valid
    elPeak := s.ctl.record.elPeak.seconds
    vPeak := s.ctl.record.elPeak.valid
    doorOpenMs := s.ctl.record.doorOpenMs
    doorOpenValid := s.ctl.record.doorOpenValid
    doorAlarmEn := s.ctl.record.doorAlarmEn
    booting := booting s.boot }

/-- The pins: combinational functions of the output registers and the polarities (R51). -/
def State.pins (s : State) : Pins :=
  { topRelay := s.pwm.topRelayOn ^^ s.params.topRelayInvert
    botRelay := s.pwm.botRelayOn ^^ s.params.botRelayInvert
    buzzer := s.alarm.buzzerOn ^^ buzzerInvert }

end Sys2Proof.Machine
end

