-- ==== Sys2Proof/Safety.lean ====
section
/-! DEFINITION. What claims are stated in: the invariant of the block (R57 of spec/10_state.md), the profile
as the source's table, the order of the checkpoints (R203), a shift of the time base (R91, R315), and the
conformance of `LIN` to the exact formula (R151, R152). -/

namespace Sys2Proof.Machine

/-! ### The invariant -/

/-- The window in progress (R57 item 1, R158 item 5): fewer than `N_AVG` samples, and a sum that lies
between one unit of 2^-1074 and `T_MAX_K` for each of them. -/
structure WindowInv (p : Params) (e : Estimator) : Prop where
  cnt_lt : e.cnt.toNat < p.nAvg
  acc_finite : e.acc.isFinite = true
  acc_sign : e.acc.sign = false
  acc_lower : e.cnt.toNat ≤ e.acc.units
  acc_upper : e.acc.units ≤ e.cnt.toNat * tMaxK.units

/-- The published temperature (R57 item 6): +0.0 before the first emission, then in (0, `T_MAX_K`]. -/
structure PublishedInv (e : Estimator) : Prop where
  before : e.tempValid = false → e.tempK = .posZero
  after : e.tempValid = true →
    e.tempK.isFinite = true ∧ Binary64.posZero.lt e.tempK = true ∧ e.tempK.le tMaxK = true

/-- The count of invalid samples (R37, R140 item 3): it saturates at the limit, and reaches it only with
the fault latched (R157). -/
structure FaultInv (p : Params) (e : Estimator) : Prop where
  bad_le : e.badCnt.toNat ≤ p.sensorFaultLimit
  bad_lt : e.sensorFault = false → e.badCnt.toNat < p.sensorFaultLimit

/-- The Stage Controller (R57 items 3, 4, 5, 7, 8), the record of no run (R199, R320), and the start gate
(R183, R316). -/
structure ControllerInv (e : Estimator) (c : StageController) : Prop where
  idle : c.stage = .off ∨ c.stage = .hold ∨ c.stage = .cool →
    c.substage = 0 ∧ c.topPower = 0 ∧ c.botPower = 0
  faulted : e.sensorFault = true → c.topPower = 0 ∧ c.botPower = 0
  alarm_enabled : c.record.doorAlarmEn = decide (c.stage = .cool)
  door_valid : c.record.doorOpenValid = decide (c.stage = .cool)
  no_run : c.stage = .off ∨ c.stage = .hold → c.record = .cleared
  gated : e.tempValid = false → c.stage = .off ∨ c.stage = .hold

/-- The output registers (R244, R265): a relay is on only with its heater's power above 0, the buzzer only
with the alarm active. -/
structure OutputInv (s : State) : Prop where
  top : s.pwm.topRelayOn = true → s.ctl.topPower ≠ 0
  bot : s.pwm.botRelayOn = true → s.ctl.botPower ≠ 0
  buzzer : s.alarm.buzzerOn = true → s.alarm.alarmActive = true

/-- Before the boot has ended every register but the boot sequencer's holds its reset value (R312). -/
structure BootInv (s : State) : Prop where
  registers : s.boot.phase ≠ .run →
    s.est = .reset ∧ s.ctl = .reset ∧ s.pwm = .reset ∧ s.alarm = .reset
  waiting : s.boot.phase = .waitFirst → s.boot.startMs = 0

/-- The invariant that holds after every step (R57), of an instance of the block (R7). -/
structure Inv (s : State) : Prop where
  isInstance : s.params.wellFormed = true
  window : WindowInv s.params s.est
  published : PublishedInv s.est
  fault : FaultInv s.params s.est
  controller : ControllerInv s.est s.ctl
  outputs : OutputInv s
  boot : BootInv s
  events : s.events.length ≤ 1

/-! ### The profile as a table -/

/-- A row of the source's profile table: below its bound, the stage has this sub-stage and these powers. -/
structure ProfileRow where
  stage : Stage
  below : Binary64
  substage : Substage
  top : Power
  bot : Power

/-- The profile table (R189, R191, R193), in the order the spec lists the rows of each stage. -/
def profileRows (p : Params) : List ProfileRow :=
  [ ⟨.preheat, degC 40, 1, 0, 5⟩, ⟨.preheat, degC 100, 2, 1, 5⟩, ⟨.preheat, degC 140, 3, 3, 6⟩,
    ⟨.soak, degC 150, 1, 1, 4⟩, ⟨.soak, degC 170, 2, 2, 5⟩, ⟨.soak, degC 180, 3, 2, 6⟩,
    ⟨.reflow, degC 190, 1, 3, 6⟩, ⟨.reflow, p.reflowSub2LimitC, 2, 3, 6⟩, ⟨.reflow, degC 212, 3, 3, 6⟩ ]

/-- The first row of a stage whose condition holds at a temperature; none where the stage is left. -/
def profileRow (p : Params) (stage : Stage) (t : Binary64) : Option ProfileRow :=
  (profileRows p).find? fun row => decide (row.stage = stage) && t.lt row.below

/-- The transitions of `stage` and their conditions on one TICK (R202): `e` is the estimator after the
TICK's ESTIMATE, `c` the Stage Controller before the TICK. -/
def Transition (e : Estimator) (c : StageController) (btn : Bool) (now : Millis) : Stage → Stage → Prop
  | .off, .hold => btn = true
  | .hold, .off => btn = false
  | .hold, .preheat => btn = true ∧ buttonTimeMs ≤ elapsedMs now c.pressStartMs ∧ e.tempValid = true ∧
      e.sensorFault = false
  | .preheat, .soak => (degC 140).le (celsius e.tempK) = true
  | .soak, .reflow => (degC 180).le (celsius e.tempK) = true
  | .reflow, .cool => (degC 212).le (celsius e.tempK) = true
  | .cool, .off => (celsius e.tempK).le (degC 50) = true
  | _, _ => False

/-! ### The order of the checkpoints -/

/-- The rising checkpoints are recorded in order, with non-decreasing seconds (R203). -/
structure CheckpointsOrdered (r : RunRecord) : Prop where
  first : r.el150.valid = true → r.el50.valid = true ∧ r.el50.seconds.toNat ≤ r.el150.seconds.toNat
  second : r.el180up.valid = true → r.el150.valid = true ∧ r.el150.seconds.toNat ≤ r.el180up.seconds.toNat

/-- No recorded rising checkpoint is later than `es` seconds of the run. -/
structure CheckpointsNotAfter (es : Seconds) (r : RunRecord) : Prop where
  el50 : r.el50.valid = true → r.el50.seconds.toNat ≤ es.toNat
  el150 : r.el150.valid = true → r.el150.seconds.toNat ≤ es.toNat
  el180up : r.el180up.valid = true → r.el180up.seconds.toNat ≤ es.toNat

/-! ### A shift of the time base -/

/-- The timestamps that are live at a stage, moved by `d`. -/
def shiftRecord (d : Millis) (stage : Stage) (r : RunRecord) : RunRecord :=
  { r with
    runStartMs := if stage.isNegative then r.runStartMs else r.runStartMs + d
    doorOpenMs := if r.doorOpenValid then r.doorOpenMs + d else r.doorOpenMs }

/-- The same state on a clock that reads `d` more: every live timestamp is moved by `d`. A timestamp that
holds its cleared or reset value because nothing has started its timer stays as it is. -/
def shiftTime (d : Millis) (s : State) : State :=
  { s with
    boot := if s.boot.phase = .waitFirst then s.boot else { s.boot with startMs := s.boot.startMs + d }
    ctl := { s.ctl with
      record := shiftRecord d s.ctl.stage s.ctl.record
      pressStartMs := if s.boot.phase = .run then s.ctl.pressStartMs + d else s.ctl.pressStartMs }
    pwm := if s.boot.phase = .run then { s.pwm with startMs := s.pwm.startMs + d } else s.pwm
    alarm :=
      if s.boot.phase = .run then { s.alarm with beepStartMs := s.alarm.beepStartMs + d } else s.alarm }

/-! ### Samples and sequences of TICKs -/

/-- A valid sample (R153): within the ADC range, with a temperature in (0, `T_MAX_K`). -/
def ValidSample (p : Params) (raw : AdcCode) : Prop :=
  raw ≠ 0 ∧ raw.toNat < p.adcMax ∧ Binary64.posZero.lt (lin p raw) = true ∧ (lin p raw).lt tMaxK = true

/-- The cause of the SensorFault that a sample raises (R281). -/
def FaultCause (p : Params) (raw : AdcCode) : SensorFault → Prop
  | .rawZero => raw = 0
  | .rawHigh => raw ≠ 0 ∧ p.adcMax ≤ raw.toNat
  | .badResult => raw ≠ 0 ∧ raw.toNat < p.adcMax ∧
      ¬(Binary64.posZero.lt (lin p raw) = true ∧ (lin p raw).lt tMaxK = true)

/-- The operands of a TICK. -/
structure TickInput where
  raw : AdcCode
  btn : Bool
  door : Bool
  nowMs : Millis
  deriving DecidableEq, Repr

/-- The host issues these TICKs and nothing else. -/
def State.withTicks (s : State) (ticks : List TickInput) : State :=
  s.setInbox (ticks.map fun i => encode (.tick i.raw i.btn i.door i.nowMs))

/-! ### Rounding -/

/-- The smallest magnitude, in units of 2^-1074, that rounds to infinity: half a last place above the largest
finite number. -/
def overflowUnits : ℚ := (2 ^ 54 - 1) * 2 ^ 2044

/-- `r` is the exact value `v`, in units of 2^-1074, rounded to nearest, ties to even (R9): no finite number
is nearer, and where another one is as near the fraction of `r` is even; a value too large for the format
gives the infinity of its sign. -/
def IsRounded (v : ℚ) (r : Binary64) : Prop :=
  (|v| < overflowUnits ∧ r.isFinite = true ∧ ∀ z : Binary64, z.isFinite = true →
      |(r.toUnits : ℚ) - v| ≤ |(z.toUnits : ℚ) - v| ∧
      (|(r.toUnits : ℚ) - v| = |(z.toUnits : ℚ) - v| → z.toUnits ≠ r.toUnits → r.fracField % 2 = 0)) ∨
  (overflowUnits ≤ |v| ∧ r = .inf (decide (v < 0)))

/-! ### The linearizer over the real numbers -/

/-- The real number a finite binary64 number stands for. -/
def Binary64Value (x : Binary64) (r : ℝ) : Prop := x.isFinite = true ∧ r * 2 ^ 1074 = (x.toUnits : ℝ)

/-- The exact conversion of a code (R151): `temp` is the Steinhart–Hart temperature, in real arithmetic. R151
gives it for 1 ≤ raw ≤ `ADC_MAX` − 1, where the resistance is positive; what uses this states that range. -/
def ExactConversion (p : Params) (raw : AdcCode) (temp : ℝ) : Prop :=
  ∃ vcc r a b c vout rth : ℝ,
    Binary64Value p.vcc vcc ∧ Binary64Value p.rSeries r ∧ Binary64Value p.shA a ∧
    Binary64Value p.shB b ∧ Binary64Value p.shC c ∧
    vout = raw.toNat * vcc / p.adcMax ∧ rth = vcc * r / vout - r ∧
    temp = 1 / (a + b * Real.log rth + c * Real.log rth ^ 3)

/-- `LIN` conforms (R152 (b)): within `LIN_TOL` = 1e-12 of the exact conversion, relatively, at every code
where that is finite and positive. No step checks this; a claim that needs it takes it as a premise. -/
def LinWithinTolerance (p : Params) : Prop :=
  ∀ (raw : AdcCode) (temp : ℝ), 1 ≤ raw.toNat → raw.toNat ≤ p.adcMax - 1 → ExactConversion p raw temp →
    0 < temp → ∃ v : ℝ, Binary64Value (lin p raw) v ∧ |v - temp| ≤ 1e-12 * temp

end Sys2Proof.Machine
end

