-- ==== Sys2Proof/Certificates/Slice0/Obligations.lean ====
section
/-! DEFINITION. The statements for the provers, family by family: bundles, steps, NOP and RESET, boot,
ESTIMATE, CONTROL, PWM, ALARM and BEEP, ports, arithmetic, and the whole machine. -/

open Sys2Proof Sys2Proof.Machine

/-! ### Bundles (30_encoding.md) -/

/-- Bundles written out in R114 and in vectors EN1 to EN11 of 95_test_vectors.md decode to their commands. -/
def Obligations.WrittenBundlesDecode : Prop :=
  decodeBundle 0x0000000000000 = .nop ∧
  decodeBundle 0x00000BB8002E1 = .tick 46 false false 3000 ∧
  decodeBundle 0x00000FA0002E5 = .tick 46 true false 4000 ∧
  decodeBundle 0x0001E24003B69 = .tick 950 false true 123456 ∧
  decodeBundle 0xFFFFFFFFFFFFD = .tick 65535 true true 4294967295 ∧
  decodeBundle 0x0000000000002 = .reset ∧
  decodeBundle 0x0000000000006 = .reset ∧
  decodeBundle 0x0000000000003 = .reserved ∧
  decodeBundle 0xFFFFFFFFFFFFF = .reserved

/-- Every command, with every operand at every value, is what its encoding decodes to (R112, R114). -/
def Obligations.DecodeOfEncodeIsTheCommand : Prop := ∀ i : Instr, decodeBundle (encode i) = i

/-- No bit of a TICK bundle is ignored: encoding what it decodes to gives it back (R101, R114). -/
def Obligations.TickBundleIsDeterminedByItsFields : Prop :=
  ∀ b : Bundle, b.toNat % 4 = 1 → encode (decodeBundle b) = b

/-- R112, with R102: the command select and each field are the bits the rule names, and NOP, RESET and the
reserved command depend on no other bit. -/
def Obligations.DecoderReadsTheFields : Prop :=
  ∀ b : Bundle,
    (b.toNat % 4 = 0 → decodeBundle b = .nop) ∧
    (b.toNat % 4 = 1 → ∃ raw btn door now, decodeBundle b = .tick raw btn door now ∧
      (btn = true ↔ b.toNat / 2 ^ 2 % 2 = 1) ∧ (door = true ↔ b.toNat / 2 ^ 3 % 2 = 1) ∧
      raw.toNat = b.toNat / 2 ^ 4 % 2 ^ 16 ∧ now.toNat = b.toNat / 2 ^ 20) ∧
    (b.toNat % 4 = 2 → decodeBundle b = .reset) ∧
    (b.toNat % 4 = 3 → decodeBundle b = .reserved)

/-- The assembler's lines (R114): each gives the bundle the rule writes, and an operand out of range is an
error. -/
def Obligations.AssemblerEncodesLines : Prop :=
  assemble .nop = .ok [0] ∧ assemble .reset = .ok [2] ∧
  (∀ v, v < 2 ^ 52 → ∃ w, assemble (.bundle v) = .ok [w] ∧ w.toNat = v) ∧
  (∀ v, 2 ^ 52 ≤ v → assemble (.bundle v) = .error .operandOutOfRange) ∧
  (∀ raw btn door now, raw < 2 ^ 16 → btn < 2 → door < 2 → now < 2 ^ 32 →
    ∃ w, assemble (.tick raw btn door now) = .ok [w] ∧
      w.toNat = now * 2 ^ 20 + raw * 2 ^ 4 + door * 2 ^ 3 + btn * 2 ^ 2 + 1) ∧
  (∀ raw btn door now, 2 ^ 16 ≤ raw ∨ 2 ≤ btn ∨ 2 ≤ door ∨ 2 ^ 32 ≤ now →
    assemble (.tick raw btn door now) = .error .operandOutOfRange)

/-- R115: TICKN expands to n TICKs, the i-th at (t0 + i·dt) mod 2^32, in that order. The rule gives t0 no range;
that the model takes those of TICK's times is its choice (log entry 9). -/
def Obligations.TicknExpandsToTicks : Prop :=
  ∀ n raw btn door t0 dt, 1 ≤ n → raw < 2 ^ 16 → btn < 2 → door < 2 → t0 < 2 ^ 32 →
    ∃ bundles, assemble (.tickn n raw btn door t0 dt) = .ok bundles ∧ bundles.length = n ∧
      ∀ i w, bundles[i]? = some w → ∃ r b d t, decodeBundle w = .tick r b d t ∧
        r.toNat = raw ∧ b.toNat = btn ∧ d.toNat = door ∧ t.toNat = (t0 + i * dt) % 2 ^ 32

/-- A number is rejected by the decoder exactly where it has a bit above bit 51 (R100, R112; that such a
number is rejected and not cut is the model's choice, log entry 8). -/
def Obligations.NumbersAboveTheBundleAreRejected : Prop :=
  ∀ w : Nat, decode w = .error .notABundle ↔ 2 ^ 52 ≤ w

/-! ### Steps (40_commands.md R130, 00_scope.md R7) -/

/-- A step takes the first bundle the host has issued and is `exec` of what it decodes to, in the state
without that bundle. The inbox is the model's own field (log entry 6). -/
def Obligations.StepRunsTheDecodedCommand : Prop :=
  ∀ (s : State) (b : Bundle) (rest : List Bundle), s.inbox = b :: rest → s.params.wellFormed = true →
    step s = exec (decodeBundle b) { s with inbox := rest }

/-- Where the host has issued no command, a step holds the state (R293; the model's choice, log entry 6). -/
def Obligations.IdleStepHoldsTheState : Prop :=
  ∀ s : State, s.inbox = [] → step s = .next s

/-- R7: a parameter set is an instance of the block exactly where the rule's constraints hold, and any other
is refused before a command is run. That State holds the parameters and a step checks them is the model's
choice (log entry 1), and so is the inbox from which the step takes its bundle (R130, log entry 6). -/
def Obligations.ParameterConstraintsGateTheStep : Prop :=
  ∀ (s : State) (b : Bundle) (rest : List Bundle), s.inbox = b :: rest →
    let p := s.params
    let constraints := 1 ≤ p.nAvg ∧ p.nAvg ≤ 65535 ∧ 1 ≤ p.sensorFaultLimit ∧ p.sensorFaultLimit ≤ 65535 ∧
      2 ≤ p.adcMax ∧ p.adcMax ≤ 65536 ∧
      Binary64.posZero.lt p.vcc = true ∧ p.vcc.isFinite = true ∧
      Binary64.posZero.lt p.rSeries = true ∧ p.rSeries.isFinite = true ∧
      (p.slice6MinPower = 5 ∨ p.slice6MinPower = 6) ∧ p.reflowSub2LimitC.isFinite = true ∧
      (degC 190).le p.reflowSub2LimitC = true ∧ p.reflowSub2LimitC.le (degC 212) = true
    (constraints → step s = exec (decodeBundle b) { s with inbox := rest }) ∧
    (¬constraints → step s = .refused .notAnInstance)

/-- R130: a step of an instance performs exactly one of NOP, TICK and RESET, as `cmd` selects, the reserved
value NOP, and has a next state from every state. The inbox, from which a step takes its bundle and which
RESET keeps, is the model's choice (log entry 6). -/
def Obligations.StepPerformsOneCommand : Prop :=
  ∀ (s : State) (b : Bundle) (rest : List Bundle), s.inbox = b :: rest → s.params.wellFormed = true →
    ∃ t, step s = .next t ∧
      (b.toNat % 4 = 0 ∨ b.toNat % 4 = 3 → t = { s with inbox := rest, events := [] }) ∧
      (b.toNat % 4 = 1 → exec (.tick (rawField b) (btnField b) (doorField b) (nowMsField b))
        { s with inbox := rest } = .next t) ∧
      (b.toNat % 4 = 2 → t = { State.resetOf s.params with inbox := rest })

/-- No command writes a parameter of the instance (R89, R310). -/
def Obligations.ParametersNeverChange : Prop :=
  ∀ s t : State, step s = .next t → t.params = s.params

/-! ### NOP, the reserved command and RESET (40_commands.md R132, R133, 30_encoding.md R103) -/

/-- R132: NOP changes no register and returns the empty event list. -/
def Obligations.NopChangesNothing : Prop := ∀ s : State, exec .nop s = .next { s with events := [] }

/-- R103: the reserved command performs exactly the NOP. -/
def Obligations.ReservedCommandIsNop : Prop :=
  ∀ s : State, exec .reserved s = exec .nop s ∧ exec .reserved s = .next { s with events := [] }

/-- R133, R310: RESET gives every register its reset value, whatever it held, and leaves the parameters; the
relay pins then show their polarity, the buzzer pin is 0 and `booting` is 1. That RESET keeps the inbox, the
model's own field, is the model's choice (log entry 6). -/
def Obligations.ResetRestoresEveryRegister : Prop :=
  ∀ s : State, ∃ t, exec .reset s = .next t ∧
    t.params = s.params ∧ t.inbox = s.inbox ∧ t.events = [] ∧
    t.boot = { phase := .waitFirst, startMs := 0 } ∧
    t.est = { acc := ⟨0⟩, cnt := 0, tempK := ⟨0⟩, tempValid := false, badCnt := 0, sensorFault := false
              sampleStatus := .ok } ∧
    t.ctl = { stage := .off, substage := 0, topPower := 0, botPower := 0, pressStartMs := 0
              record := { runStartMs := 0, el50 := ⟨0, false⟩, el150 := ⟨0, false⟩, el180up := ⟨0, false⟩
                          el180dw := ⟨0, false⟩, elPeak := ⟨0, false⟩, maxTempC := ⟨0⟩, doorOpenMs := 0
                          doorOpenValid := false, doorAlarmEn := false } } ∧
    t.pwm = { startMs := 0, topRelayOn := false, botRelayOn := false } ∧
    t.alarm = { alarmActive := false, beepStartMs := 0, buzzerOn := false } ∧
    t.pins = { topRelay := s.params.topRelayInvert, botRelay := s.params.botRelayInvert, buzzer := false } ∧
    t.ports.booting = true

/-! ### Boot (70_reset_and_hazards.md R312, R313) -/

/-- R312, R313: the first TICK after reset only starts the boot delay; a TICK within 3000 ms of it changes
nothing; the first TICK after that starts the three timers at its own time and is the first RUN TICK. -/
def Obligations.BootSequence : Prop :=
  ∀ (raw : AdcCode) (btn door : Bool) (now : Millis) (s : State),
    (s.boot.phase = .waitFirst → exec (.tick raw btn door now) s =
      .next { s with boot := { phase := .booting, startMs := now }, events := [] }) ∧
    (s.boot.phase = .booting → (now - s.boot.startMs).toNat < 3000 →
      exec (.tick raw btn door now) s = .next { s with events := [] }) ∧
    (s.boot.phase = .booting → 3000 ≤ (now - s.boot.startMs).toNat →
      exec (.tick raw btn door now) s = exec (.tick raw btn door now)
        { s with
          boot := { s.boot with phase := .run }
          pwm := { s.pwm with startMs := now }
          alarm := { s.alarm with beepStartMs := now }
          ctl := { s.ctl with pressStartMs := now } })

/-- R135: a RUN TICK runs the five phases in the fixed order, from an empty event list. -/
def Obligations.RunTickRunsTheFivePhases : Prop :=
  ∀ (raw : AdcCode) (btn door : Bool) (now : Millis) (s : State), s.boot.phase = .run →
    exec (.tick raw btn door now) s = .next
      (beep now (pwm now (alarm door now (control btn now (estimate raw { s with events := [] })))))

/-- The frame of a RUN TICK (R56, R89): it changes neither the boot sequencer's registers nor a parameter. That
`exec` takes no command from the inbox, the model's own field, is the model's choice (log entry 6). -/
def Obligations.RunTickFrame : Prop :=
  ∀ (raw : AdcCode) (btn door : Bool) (now : Millis) (s : State), s.boot.phase = .run →
    ∃ t, exec (.tick raw btn door now) s = .next t ∧
      t.params = s.params ∧ t.boot = s.boot ∧ t.inbox = s.inbox

/-! ### ESTIMATE (41_estimator.md) -/

/-- R156, R157, R281: an invalid sample raises SensorFault of its cause: the code is recorded, 1, 2 or 3 on its
port, and WARN emitted, the count saturates at the limit, reaching it latches the fault, and nothing else of the
estimator changes. -/
def Obligations.InvalidSampleRaisesSensorFault : Prop :=
  ∀ (raw : AdcCode) (btn door : Bool) (now : Millis) (s : State) (code : SensorFault),
    s.boot.phase = .run → s.params.sensorFaultLimit ≤ 65535 → FaultCause s.params raw code →
    ∃ t, exec (.tick raw btn door now) s = .next t ∧ t.events = [.warn code] ∧
      t.ports.sampleStatus = (match code with
        | .rawZero => 1
        | .rawHigh => 2
        | .badResult => 3) ∧
      let bad := min (s.est.badCnt.toNat + 1) s.params.sensorFaultLimit
      t.est = { s.est with
        sampleStatus := .fault code
        badCnt := BitVec.ofNat 16 bad
        sensorFault := s.est.sensorFault || decide (s.params.sensorFaultLimit ≤ bad) }

/-- R153, R154, R155: a valid sample is added to the sum with one rounding; a sample that fills the window
publishes the rounded mean, emits it and empties the window. -/
def Obligations.ValidSampleIsAccumulatedAndPublished : Prop :=
  ∀ (raw : AdcCode) (btn door : Bool) (now : Millis) (s : State),
    s.boot.phase = .run → ValidSample s.params raw →
    ∃ t, exec (.tick raw btn door now) s = .next t ∧
      let sum := s.est.acc.add (lin s.params raw)
      ((s.est.cnt + 1).toNat ≠ s.params.nAvg →
        t.est = { s.est with acc := sum, cnt := s.est.cnt + 1, badCnt := 0, sampleStatus := .ok } ∧
        t.events = []) ∧
      ((s.est.cnt + 1).toNat = s.params.nAvg →
        t.est = { s.est with
          acc := ⟨0⟩
          cnt := 0
          tempK := sum.div (.ofNat s.params.nAvg)
          tempValid := true
          badCnt := 0
          sampleStatus := .ok } ∧
        t.events = [.diag (sum.div (.ofNat s.params.nAvg))])

/-- R159: the published temperature changes only where a mean is emitted, or by RESET. -/
def Obligations.TemperatureChangesOnlyAtEmission : Prop :=
  ∀ (i : Instr) (s t : State), exec i s = .next t → t.est.tempK ≠ s.est.tempK →
    i = .reset ∨ (t.events = [.diag t.est.tempK] ∧ t.est.tempValid = true)

/-- R134: a command emits nothing, or one DIAG of the temperature just published, or one WARN of the status
just recorded; only a TICK emits. -/
def Obligations.AtMostOneEventPerCommand : Prop :=
  ∀ (i : Instr) (s t : State), exec i s = .next t →
    t.events = [] ∨ ∃ raw btn door now, i = .tick raw btn door now ∧
      ((t.events = [.diag t.est.tempK] ∧ t.est.sampleStatus = .ok) ∨
        ∃ code, t.events = [.warn code] ∧ t.est.sampleStatus = .fault code)

/-- R157, R286: a latched sensor fault stays until RESET. -/
def Obligations.SensorFaultIsClearedOnlyByReset : Prop :=
  ∀ (i : Instr) (s t : State), exec i s = .next t → s.est.sensorFault = true → i ≠ .reset →
    t.est.sensorFault = true

/-- R156, R157 over a run of TICKs: consecutive invalid samples keep the window, count up to the limit and
latch the fault exactly where the limit is reached. -/
def Obligations.ConsecutiveInvalidSamplesLatchTheFault : Prop :=
  ∀ (s : State) (ticks : List TickInput), s.boot.phase = .run → s.params.wellFormed = true →
    FaultInv s.params s.est → (∀ i ∈ ticks, ¬ValidSample s.params i.raw) →
    ∃ t, Sys2Proof.core.run ticks.length (s.withTicks ticks) = .next t ∧
      t.est.acc = s.est.acc ∧ t.est.cnt = s.est.cnt ∧ t.est.tempK = s.est.tempK ∧
      t.est.tempValid = s.est.tempValid ∧
      t.est.badCnt.toNat = min (s.est.badCnt.toNat + ticks.length) s.params.sensorFaultLimit ∧
      t.est.sensorFault =
        (s.est.sensorFault || decide (s.params.sensorFaultLimit ≤ s.est.badCnt.toNat + ticks.length))

/-- R154, R155, R159 over a whole window: `N_AVG` valid samples from an empty window publish the quotient of
their sum, rounded once per sample in sample order, by `N_AVG`; before the last of them the published
temperature is the old one. -/
def Obligations.FullWindowPublishesTheBlockAverage : Prop :=
  ∀ (s : State) (ticks : List TickInput), s.boot.phase = .run → s.params.wellFormed = true →
    s.est.acc = ⟨0⟩ → s.est.cnt = 0 → ticks.length = s.params.nAvg →
    (∀ i ∈ ticks, ValidSample s.params i.raw) →
    (∀ k, k < ticks.length → ∃ t, Sys2Proof.core.run k (s.withTicks ticks) = .next t ∧
      t.est.tempK = s.est.tempK ∧ t.est.cnt.toNat = k) ∧
    ∃ t, Sys2Proof.core.run ticks.length (s.withTicks ticks) = .next t ∧
      t.est.tempK = (ticks.foldl (fun (sum : Binary64) i => sum.add (lin s.params i.raw)) ⟨0⟩).div
        (.ofNat s.params.nAvg) ∧
      t.est.tempValid = true ∧ t.est.acc = ⟨0⟩ ∧ t.est.cnt = 0 ∧ t.events = [.diag t.est.tempK]

/-- R56, R150: what the estimator does depends on `raw` alone among the inputs. -/
def Obligations.EstimatorIgnoresButtonDoorAndTime : Prop :=
  ∀ (raw : AdcCode) (btn btn' door door' : Bool) (now now' : Millis) (s : State), s.boot.phase = .run →
    ∃ t t', exec (.tick raw btn door now) s = .next t ∧ exec (.tick raw btn' door' now') s = .next t' ∧
      t.est = t'.est ∧ t.events = t'.events

/-! ### CONTROL (42_stage_controller.md) -/

/-- R181: a released button restarts the hold timer, whatever the stage, and leaves Off or Hold in Off. -/
def Obligations.ButtonReleaseRestartsTheHold : Prop :=
  ∀ (raw : AdcCode) (door : Bool) (now : Millis) (s : State), s.boot.phase = .run →
    ∃ t, exec (.tick raw false door now) s = .next t ∧ t.ctl.pressStartMs = now ∧
      (s.ctl.stage = .off ∨ s.ctl.stage = .hold →
        t.ctl = { s.ctl with stage := .off, substage := 0, topPower := 0, botPower := 0
                             pressStartMs := now })

/-- R182: a press in Off enters Hold, whatever the temperature and the sensor fault. -/
def Obligations.PressInOffEntersHold : Prop :=
  ∀ (raw : AdcCode) (door : Bool) (now : Millis) (s : State), s.boot.phase = .run →
    s.ctl.stage = .off →
    ∃ t, exec (.tick raw true door now) s = .next t ∧
      t.ctl = { s.ctl with stage := .hold, substage := 0, topPower := 0, botPower := 0 }

/-- R183: a pressed button in Hold starts a run exactly where it has been held for 3000 ms, a temperature has
been published and no sensor fault is latched; the estimator's registers are those this TICK's ESTIMATE
left. -/
def Obligations.HoldStartsARunOnItsConditions : Prop :=
  ∀ (raw : AdcCode) (door : Bool) (now : Millis) (s : State), s.boot.phase = .run →
    s.ctl.stage = .hold →
    ∃ t, exec (.tick raw true door now) s = .next t ∧
      let start := 3000 ≤ (now - s.ctl.pressStartMs).toNat ∧ t.est.tempValid = true ∧
        t.est.sensorFault = false
      (start → t.ctl = { stage := .preheat, substage := 0, topPower := 0, botPower := 0
                         record := { RunRecord.cleared with runStartMs := now }
                         pressStartMs := s.ctl.pressStartMs }) ∧
      (¬start → t.ctl = { s.ctl with substage := 0, topPower := 0, botPower := 0 })

/-- R184: in a run the button changes nothing but the hold timer. -/
def Obligations.ButtonDuringARunOnlyMovesTheHoldTimer : Prop :=
  ∀ (raw : AdcCode) (door : Bool) (now : Millis) (s : State), s.boot.phase = .run →
    s.ctl.stage ≠ .off → s.ctl.stage ≠ .hold →
    ∃ t, exec (.tick raw false door now) s = .next t ∧ t.ctl.pressStartMs = now ∧
      exec (.tick raw true door now) s =
        .next { t with ctl := { t.ctl with pressStartMs := s.ctl.pressStartMs } }

/-- R189, R191, R193: in Preheat, Soak and Reflow the first row of the stage's table whose condition holds
gives the sub-stage and, unless the sensor fault is latched (R200), the powers, and the stage is kept. -/
def Obligations.HeatingStageAppliesTheFirstRow : Prop :=
  ∀ (raw : AdcCode) (btn door : Bool) (now : Millis) (s : State), s.boot.phase = .run →
    ∃ t, exec (.tick raw btn door now) s = .next t ∧
      ∀ row, profileRow s.params s.ctl.stage (celsius t.est.tempK) = some row →
        t.ctl = { stage := s.ctl.stage
                  substage := row.substage
                  topPower := if t.est.sensorFault then 0 else row.top
                  botPower := if t.est.sensorFault then 0 else row.bot
                  record := t.ctl.record
                  pressStartMs := if btn then s.ctl.pressStartMs else now } ∧
        (s.ctl.stage = .reflow → t.ctl.record = s.ctl.record)

/-- R190, R192: Preheat is left for Soak at 140 °C and Soak for Reflow at 180 °C, with the sub-stage and the
powers held on that TICK (R201), unless the sensor fault zeroes the powers (R200). -/
def Obligations.StageExitHoldsTheOutputs : Prop :=
  ∀ (raw : AdcCode) (btn door : Bool) (now : Millis) (s : State), s.boot.phase = .run →
    ∃ t, exec (.tick raw btn door now) s = .next t ∧
      let held (stage : Stage) : StageController :=
        { stage := stage
          substage := s.ctl.substage
          topPower := if t.est.sensorFault then 0 else s.ctl.topPower
          botPower := if t.est.sensorFault then 0 else s.ctl.botPower
          record := t.ctl.record
          pressStartMs := if btn then s.ctl.pressStartMs else now }
      (s.ctl.stage = .preheat → (degC 140).le (celsius t.est.tempK) = true → t.ctl = held .soak) ∧
      (s.ctl.stage = .soak → (degC 180).le (celsius t.est.tempK) = true → t.ctl = held .reflow)

/-- R194: Reflow is left for Cool at 212 °C: the door-open timestamp is latched, the door alarm enabled, and
the sub-stage and powers are 0 on that very TICK. -/
def Obligations.ReflowExitEntersCool : Prop :=
  ∀ (raw : AdcCode) (btn door : Bool) (now : Millis) (s : State), s.boot.phase = .run →
    s.params.wellFormed = true → s.ctl.stage = .reflow →
    ∃ t, exec (.tick raw btn door now) s = .next t ∧
      ((degC 212).le (celsius t.est.tempK) = true →
        t.ctl = { stage := .cool, substage := 0, topPower := 0, botPower := 0
                  record := { s.ctl.record with
                    doorOpenMs := now, doorOpenValid := true, doorAlarmEn := true }
                  pressStartMs := if btn then s.ctl.pressStartMs else now })

/-- R186, R187, R188, R204: in Preheat and Soak each rising checkpoint records the whole seconds since the
run's start on the first TICK its threshold is met, and nothing else of the record changes. -/
def Obligations.RisingCheckpointsLatchOnce : Prop :=
  ∀ (raw : AdcCode) (btn door : Bool) (now : Millis) (s : State), s.boot.phase = .run →
    s.ctl.stage = .preheat ∨ s.ctl.stage = .soak →
    ∃ t, exec (.tick raw btn door now) s = .next t ∧
      let temp := celsius t.est.tempK
      let es : Seconds := BitVec.ofNat 32 ((now - s.ctl.record.runStartMs).toNat / 1000)
      let latched (c : Checkpoint) (threshold : Binary64) : Checkpoint :=
        if threshold.le temp = true ∧ c.valid = false then { seconds := es, valid := true } else c
      t.ctl.record = { s.ctl.record with
        el50 := latched s.ctl.record.el50 (degC 50)
        el150 := latched s.ctl.record.el150 (degC 150)
        el180up := latched s.ctl.record.el180up (degC 180) }

/-- R195 to R199: a TICK in Cool keeps the heaters off, records each new maximum and the fall to 180 °C, and
at 50 °C ends the run with its record cleared. -/
def Obligations.CoolTracksThePeakAndEndsTheRun : Prop :=
  ∀ (raw : AdcCode) (btn door : Bool) (now : Millis) (s : State), s.boot.phase = .run →
    s.ctl.stage = .cool →
    ∃ t, exec (.tick raw btn door now) s = .next t ∧
      let temp := celsius t.est.tempK
      let es : Seconds := BitVec.ofNat 32 ((now - s.ctl.record.runStartMs).toNat / 1000)
      let press := if btn then s.ctl.pressStartMs else now
      (temp.le (degC 50) = false → t.ctl =
        { stage := .cool, substage := 0, topPower := 0, botPower := 0
          record := { s.ctl.record with
            maxTempC := if s.ctl.record.maxTempC.lt temp = true then temp else s.ctl.record.maxTempC
            elPeak := if s.ctl.record.maxTempC.lt temp = true then { seconds := es, valid := true }
              else s.ctl.record.elPeak
            el180dw := if temp.le (degC 180) = true ∧ s.ctl.record.el180dw.valid = false
              then { seconds := es, valid := true } else s.ctl.record.el180dw }
          pressStartMs := press }) ∧
      (temp.le (degC 50) = true → t.ctl =
        { stage := .off, substage := 0, topPower := 0, botPower := 0
          record := { runStartMs := 0, el50 := ⟨0, false⟩, el150 := ⟨0, false⟩, el180up := ⟨0, false⟩
                      el180dw := ⟨0, false⟩, elPeak := ⟨0, false⟩, maxTempC := ⟨0⟩, doorOpenMs := 0
                      doorOpenValid := false, doorAlarmEn := false }
          pressStartMs := press })

/-- R200: at a RUN TICK that leaves the sensor fault latched, both powers are 0, whatever the stage, and both
relays are off at that TICK. -/
def Obligations.SensorFaultTurnsTheHeatersOff : Prop :=
  ∀ (raw : AdcCode) (btn door : Bool) (now : Millis) (s : State), s.boot.phase = .run →
    s.params.wellFormed = true →
    ∃ t, exec (.tick raw btn door now) s = .next t ∧
      (t.est.sensorFault = true → t.ctl.topPower = 0 ∧ t.ctl.botPower = 0 ∧
        t.pwm.topRelayOn = false ∧ t.pwm.botRelayOn = false)

/-- R202: the transitions of `stage` are exactly those of the summary: no other command than RESET and TICK
changes it, and a RUN TICK changes it exactly where the summary's condition holds. -/
def Obligations.StageTransitionsAreTheSummary : Prop :=
  (∀ (i : Instr) (s t : State), exec i s = .next t → t.ctl.stage ≠ s.ctl.stage →
    i = .reset ∨ ∃ raw btn door now, i = .tick raw btn door now ∧
      Transition t.est s.ctl btn now s.ctl.stage t.ctl.stage) ∧
  (∀ (raw : AdcCode) (btn door : Bool) (now : Millis) (s : State), s.boot.phase = .run →
    s.params.wellFormed = true →
    ∃ t, exec (.tick raw btn door now) s = .next t ∧
      ∀ next, Transition t.est s.ctl btn now s.ctl.stage next →
        t.ctl.stage = next ∧ next ≠ s.ctl.stage)

/-- R203: from a record whose rising checkpoints are in order, none later than the elapsed seconds that a
TICK sees, every command leaves a record whose rising checkpoints are in order. -/
def Obligations.CheckpointsStayOrdered : Prop :=
  ∀ (i : Instr) (s t : State), exec i s = .next t → CheckpointsOrdered s.ctl.record →
    (∀ raw btn door now, i = .tick raw btn door now →
      CheckpointsNotAfter (elapsedSeconds now s.ctl.record.runStartMs) s.ctl.record) →
    CheckpointsOrdered t.ctl.record ∧
    (∀ raw btn door now, i = .tick raw btn door now → s.ctl.stage = .preheat ∨ s.ctl.stage = .soak →
      CheckpointsNotAfter (elapsedSeconds now t.ctl.record.runStartMs) t.ctl.record)

/-! ### PWM (43_pwm_driver.md) -/

/-- R241: the slice of every elapsed time of the cycle. -/
def Obligations.SliceBoundaries : Prop :=
  ∀ e : Nat, e < 1000 → slice e =
    if e < 166 then 1 else if e < 333 then 2 else if e < 500 then 3 else if e < 666 then 4
    else if e < 833 then 5 else 6

/-- R240, R242, R243: a RUN TICK restarts the cycle at its own time once 1000 ms have passed, and each relay
is on where its heater's power, as CONTROL left it, reaches the slice's threshold. -/
def Obligations.RelaysFollowThePowersThroughTheSlices : Prop :=
  ∀ (raw : AdcCode) (btn door : Bool) (now : Millis) (s : State), s.boot.phase = .run →
    ∃ t, exec (.tick raw btn door now) s = .next t ∧
      let start := if 1000 ≤ (now - s.pwm.startMs).toNat then now else s.pwm.startMs
      let e := (now - start).toNat
      let threshold := if e < 166 then 1 else if e < 333 then 2 else if e < 500 then 3
        else if e < 666 then 4 else if e < 833 then 5 else s.params.slice6MinPower
      t.pwm = { startMs := start
                topRelayOn := decide (threshold ≤ t.ctl.topPower.val)
                botRelayOn := decide (threshold ≤ t.ctl.botPower.val) }

/-- R245: the on-time of each power level over one cycle, evaluated at every millisecond, for both values of
the slice-6 threshold. -/
def Obligations.DutyOfEachPower : Prop :=
  (List.finRange 7).map (fun p => (List.range 1000).countP fun e => relayOn 5 p (slice e)) =
      [0, 166, 333, 500, 666, 1000, 1000] ∧
  (List.finRange 7).map (fun p => (List.range 1000).countP fun e => relayOn 6 p (slice e)) =
      [0, 166, 333, 500, 666, 833, 1000]

/-! ### ALARM and BEEP (44_alarm.md) -/

/-- R261, R262, R263: the alarm is the door level XOR the enable, unless it is suppressed in Cool from 8000 ms
after the door-open timestamp on; stage and record are those this TICK's CONTROL left. -/
def Obligations.DoorAlarmRule : Prop :=
  ∀ (raw : AdcCode) (btn door : Bool) (now : Millis) (s : State), s.boot.phase = .run →
    ∃ t, exec (.tick raw btn door now) s = .next t ∧
      (t.alarm.alarmActive = true ↔
        door ≠ t.ctl.record.doorAlarmEn ∧
        ¬(t.ctl.stage = .cool ∧ t.ctl.record.doorOpenValid = true ∧
          8000 ≤ (now - t.ctl.record.doorOpenMs).toNat))

/-- R264, R265: the beep period restarts at the TICK's time once 2000 ms have passed, and the buzzer sounds in
the first 1000 ms of a period while the alarm is active; its pin is not inverted. -/
def Obligations.BeeperRule : Prop :=
  ∀ (raw : AdcCode) (btn door : Bool) (now : Millis) (s : State), s.boot.phase = .run →
    ∃ t, exec (.tick raw btn door now) s = .next t ∧
      t.alarm.beepStartMs =
        (if 2000 ≤ (now - s.alarm.beepStartMs).toNat then now else s.alarm.beepStartMs) ∧
      (t.alarm.buzzerOn = true ↔
        t.alarm.alarmActive = true ∧ (now - t.alarm.beepStartMs).toNat < 1000) ∧
      t.pins.buzzer = t.alarm.buzzerOn

/-- R267: under the invariant the alarm follows an open door outside Cool; in Cool it follows a closed door
within the window and is silent after it. -/
def Obligations.AlarmTruthTable : Prop :=
  ∀ (raw : AdcCode) (btn door : Bool) (now : Millis) (s : State), s.boot.phase = .run → Inv s →
    ∃ t, exec (.tick raw btn door now) s = .next t ∧
      (t.ctl.stage ≠ .cool → t.alarm.alarmActive = door) ∧
      (t.ctl.stage = .cool → (now - t.ctl.record.doorOpenMs).toNat < 8000 →
        t.alarm.alarmActive = !door) ∧
      (t.ctl.stage = .cool → 8000 ≤ (now - t.ctl.record.doorOpenMs).toNat →
        t.alarm.alarmActive = false ∧ t.alarm.buzzerOn = false)

/-- R56, R260: the door switch reaches no register but `alarm_active` and `buzzer_on`. -/
def Obligations.DoorReachesOnlyTheAlarm : Prop :=
  ∀ (raw : AdcCode) (btn : Bool) (now : Millis) (s : State),
    ∃ t, exec (.tick raw btn false now) s = .next t ∧
      ∃ active buzzer, exec (.tick raw btn true now) s =
        .next { t with alarm := { t.alarm with alarmActive := active, buzzerOn := buzzer } }

/-! ### Ports and pins (10_state.md R51, R52, 30_encoding.md R104 to R109) -/

/-- R52, with the codes of R104 to R108: every status port is a copy of its register. The stage port carries the
two's complement of the stage's value, −2 to 3, whose bit 2 is set exactly below 0; no power port carries the
code 7; the sample status is 0 to 3; a real port carries the binary64 pattern (R81). -/
def Obligations.PortsCarryLegalCodes : Prop :=
  ∀ s : State,
    s.ports.stage.toInt = (match s.ctl.stage with
      | .off => -2
      | .hold => -1
      | .preheat => 0
      | .soak => 1
      | .reflow => 2
      | .cool => 3) ∧
    (s.ports.stage.getLsbD 2 = true ↔ s.ctl.stage = .off ∨ s.ctl.stage = .hold) ∧
    s.ports.substage.toNat = s.ctl.substage.val ∧
    s.ports.topPower.toNat = s.ctl.topPower.val ∧ s.ports.topPower ≠ 7 ∧
    s.ports.botPower.toNat = s.ctl.botPower.val ∧ s.ports.botPower ≠ 7 ∧
    s.ports.sampleStatus.toNat = (match s.est.sampleStatus with
      | .ok => 0
      | .fault .rawZero => 1
      | .fault .rawHigh => 2
      | .fault .badResult => 3) ∧
    s.ports.tempK = s.est.tempK.bits ∧ s.ports.tempValid = s.est.tempValid ∧
    s.ports.sensorFault = s.est.sensorFault ∧ s.ports.alarmActive = s.alarm.alarmActive ∧
    s.ports.maxTempC = s.ctl.record.maxTempC.bits ∧
    s.ports.el50 = s.ctl.record.el50.seconds ∧ s.ports.v50 = s.ctl.record.el50.valid ∧
    s.ports.el150 = s.ctl.record.el150.seconds ∧ s.ports.v150 = s.ctl.record.el150.valid ∧
    s.ports.el180up = s.ctl.record.el180up.seconds ∧ s.ports.v180up = s.ctl.record.el180up.valid ∧
    s.ports.el180dw = s.ctl.record.el180dw.seconds ∧ s.ports.v180dw = s.ctl.record.el180dw.valid ∧
    s.ports.elPeak = s.ctl.record.elPeak.seconds ∧ s.ports.vPeak = s.ctl.record.elPeak.valid ∧
    s.ports.doorOpenMs = s.ctl.record.doorOpenMs ∧
    s.ports.doorOpenValid = s.ctl.record.doorOpenValid ∧
    s.ports.doorAlarmEn = s.ctl.record.doorAlarmEn ∧
    (s.ports.booting = true ↔ s.boot.phase ≠ .run)

/-- R51: each pin is its output register XOR its polarity, the buzzer's polarity being 0. -/
def Obligations.PinsAreOutputsXorPolarity : Prop :=
  ∀ s : State,
    (s.pins.topRelay = true ↔ s.pwm.topRelayOn ≠ s.params.topRelayInvert) ∧
    (s.pins.botRelay = true ↔ s.pwm.botRelayOn ≠ s.params.botRelayInvert) ∧
    s.pins.buzzer = s.alarm.buzzerOn

/-! ### Arithmetic (00_scope.md R9, R11, 41_estimator.md R151, R152) -/

/-- R9: addition, subtraction, multiplication and division of finite numbers are the exact result rounded
once to nearest, ties to even. That a result too large for the format is the infinity of its sign is
IEEE 754's, which R9 names and does not spell out: the model's choice (log entry 10, PRESUMED). -/
def Obligations.ArithmeticRoundsToNearestEven : Prop :=
  ∀ x y : Binary64, x.isFinite = true → y.isFinite = true →
    IsRounded (x.toUnits + y.toUnits) (x.add y) ∧
    IsRounded (x.toUnits - y.toUnits) (x.sub y) ∧
    IsRounded (x.toUnits * y.toUnits / 2 ^ 1074) (x.mul y) ∧
    (y.toUnits ≠ 0 → IsRounded (x.toUnits * 2 ^ 1074 / y.toUnits) (x.div y))

/-- R9: the comparisons compare the values of finite numbers; +∞ is above and −∞ below every finite number, and
each infinity equals itself; a comparison is false where an operand is NaN. -/
def Obligations.ComparisonsCompareTheValues : Prop :=
  ∀ x y : Binary64,
    (x.isFinite = true → y.isFinite = true →
      (x.lt y = true ↔ x.toUnits < y.toUnits) ∧ (x.le y = true ↔ x.toUnits ≤ y.toUnits)) ∧
    (x.isFinite = true →
      x.lt (.inf false) = true ∧ x.le (.inf false) = true ∧
      Binary64.lt (.inf false) x = false ∧ Binary64.le (.inf false) x = false ∧
      Binary64.lt (.inf true) x = true ∧ Binary64.le (.inf true) x = true ∧
      x.lt (.inf true) = false ∧ x.le (.inf true) = false) ∧
    (∀ neg neg' : Bool, (Binary64.lt (.inf neg) (.inf neg') = true ↔ neg = true ∧ neg' = false) ∧
      (Binary64.le (.inf neg) (.inf neg') = true ↔ neg = true ∨ neg' = false)) ∧
    (x.isNaN = true ∨ y.isNaN = true → x.lt y = false ∧ x.le y = false)

/-- R9: `float(n)` is exact for every integer below 2^53. -/
def Obligations.SmallIntegersConvertExactly : Prop :=
  ∀ n : Nat, n < 2 ^ 53 → (Binary64.ofNat n).isFinite = true ∧
    (Binary64.ofNat n).toUnits = n * 2 ^ 1074

/-- R205 item 1: at each profile threshold the nearest temperature in Kelvin gives t exactly, and the next
lower number gives t below it. -/
def Obligations.ThresholdTemperaturesAreExact : Prop :=
  ∀ row ∈ [(40, 0x4073926666666666), (50, 0x4074326666666666), (100, 0x4077526666666666),
      (140, 0x4079d26666666666), (150, 0x407a726666666666), (170, 0x407bb26666666666),
      (180, 0x407c526666666666), (190, 0x407cf26666666666), (212, 0x407e526666666666)],
    celsius ⟨BitVec.ofNat 64 row.2⟩ = degC row.1 ∧
    (celsius ⟨BitVec.ofNat 64 (row.2 - 1)⟩).lt (degC row.1) = true

/-- R152 (a): at a code with no listed value `LIN` is the reference definition, in its evaluation order, over a
logarithm that is −∞ at a zero, a NaN below 0 (R152's two special cases) and a NaN at a NaN, and the free
value `Config.ln` above 0. The statement holds for every logarithm. That `LIN` is a table with this behind it
is log entry 3, the free logarithm and its NaN at a NaN log entry 4. -/
def Obligations.UnlistedCodesUseTheReferenceOrder : Prop :=
  ∀ (p : Params) (raw : AdcCode), p.linTable.lookup raw = none →
    let vout := ((Binary64.ofNat raw.toNat).mul p.vcc).div (.ofNat p.adcMax)
    let rth := ((p.vcc.mul p.rSeries).div vout).sub p.rSeries
    ∃ l : Binary64,
      (Binary64.posZero.lt rth = true → l = Config.ln rth) ∧
      (rth.le .posZero = true → Binary64.posZero.le rth = true → l = .inf true) ∧
      (rth.lt .posZero = true ∨ rth.isNaN = true → l.isNaN = true) ∧
      let den := (p.shA.add (p.shB.mul l)).add (p.shC.mul ((l.mul l).mul l))
      lin p raw = Binary64.div ⟨0x3FF0000000000000⟩ den

/-- R151 to R155, R159: a RUN TICK at a code of R151's range, of an instance whose `LIN` keeps the tolerance of
R152 (b), whose exact temperature lies above 0 and, with the tolerance, below `T_MAX_K`, records the status OK
and adds a number within the tolerance of that temperature to the sum, or publishes the mean of the sum with it.
The exact temperature may be computed with any supply voltage, since the voltage cancels (R151). No step checks
the tolerance: it is a premise (log entry 13). -/
def Obligations.ConformingSampleIsAccumulated : Prop :=
  ∀ (raw : AdcCode) (btn door : Bool) (now : Millis) (s : State) (vcc : Binary64) (temp : ℝ),
    s.boot.phase = .run → s.params.wellFormed = true → LinWithinTolerance s.params →
    1 ≤ raw.toNat → raw.toNat ≤ s.params.adcMax - 1 →
    vcc.isPositiveFinite = true → ExactConversion { s.params with vcc := vcc } raw temp →
    0 < temp → (1 + 1e-12) * temp < 1e6 →
    ∃ (t : State) (sample : Binary64) (value : ℝ), exec (.tick raw btn door now) s = .next t ∧
      Binary64Value sample value ∧ |value - temp| ≤ 1e-12 * temp ∧
      t.est.sampleStatus = .ok ∧ t.est.badCnt = 0 ∧ t.est.sensorFault = s.est.sensorFault ∧
      ((s.est.cnt + 1).toNat ≠ s.params.nAvg →
        t.est.acc = s.est.acc.add sample ∧ t.est.cnt = s.est.cnt + 1 ∧
        t.est.tempK = s.est.tempK ∧ t.est.tempValid = s.est.tempValid ∧ t.events = []) ∧
      ((s.est.cnt + 1).toNat = s.params.nAvg →
        t.est.acc = ⟨0⟩ ∧ t.est.cnt = 0 ∧
        t.est.tempK = (s.est.acc.add sample).div (.ofNat s.params.nAvg) ∧ t.est.tempValid = true ∧
        t.events = [.diag t.est.tempK])

/-! ### The whole machine -/

/-- The state after reset of every instance meets the invariant (R57, R310), that of `State.reset` among
them. -/
def Obligations.ResetMeetsTheInvariant : Prop :=
  (∀ p : Params, p.wellFormed = true → Inv (State.resetOf p)) ∧ Inv State.reset

/-- R57: from every state that meets the invariant, every step that has a next state keeps it. The invariant
holds the eight items of R57 (the second by the type of the powers) and what they need to be kept. -/
def Obligations.StepKeepsTheInvariant : Prop :=
  ∀ s t : State, Inv s → step s = .next t → Inv t

/-- R8, R91, R315: every decision depends on differences of times only. A TICK on a clock that reads `d` more
does to the shifted state what it does to the state, so a wrap of the clock is harmless. -/
def Obligations.OnlyTimeDifferencesMatter : Prop :=
  ∀ (d : Millis) (raw : AdcCode) (btn door : Bool) (now : Millis) (s : State),
    ∃ t, exec (.tick raw btn door now) s = .next t ∧
      exec (.tick raw btn door (now + d)) (shiftTime d s) = .next (shiftTime d t)
end

