-- ==== Sys2Proof/Laws/Binary64.lean ====
section
/-! SUPPORT. The lemmas of binary64 rounding: what a magnitude pattern is worth, that rounding keeps the
order of exact values, and that a value the format holds rounds to itself. -/

namespace Sys2Proof.Binary64

/-! ### Rounding a quotient to an integer -/

theorem roundDiv_le_succ (n d : Nat) : roundDiv n d ≤ n / d + 1 := by
  unfold roundDiv
  dsimp only
  split
  · omega
  · split
    · omega
    · have := Nat.mod_lt (n / d) (show 0 < 2 by omega)
      omega

theorem div_le_roundDiv (n d : Nat) : n / d ≤ roundDiv n d := by
  unfold roundDiv
  dsimp only
  split
  · exact le_rfl
  · split <;> omega

/-- The rounded quotient is the nearest integer: twice the error is at most one divisor. -/
theorem roundDiv_error {n d : Nat} (hd : 0 < d) :
    2 * (roundDiv n d * d) ≤ 2 * n + d ∧ 2 * n ≤ 2 * (roundDiv n d * d) + d := by
  have hdm : d * (n / d) + n % d = n := Nat.div_add_mod n d
  have hr : n % d < d := Nat.mod_lt n hd
  have key : ∀ q, q = n / d → 2 * (q * d) + 2 * (n % d) = 2 * n := by
    intro q hq; subst hq; rw [Nat.mul_comm (n / d) d]; omega
  unfold roundDiv
  dsimp only
  have hk := key _ rfl
  split
  · constructor <;> omega
  · split
    · rw [Nat.add_mul, one_mul]; constructor <;> omega
    · have h2 : n / d % 2 = 0 ∨ n / d % 2 = 1 := by omega
      rcases h2 with h2 | h2 <;> rw [h2]
      · rw [Nat.add_zero]; constructor <;> omega
      · rw [Nat.add_mul, one_mul]; constructor <;> omega

/-- An exact quotient rounds to itself. -/
theorem roundDiv_mul_self {d : Nat} (m : Nat) (hd : 0 < d) : roundDiv (m * d) d = m := by
  unfold roundDiv
  simp [Nat.mul_div_cancel m hd, Nat.mul_mod_left, hd]

/-- Rounding keeps the order of quotients. -/
theorem roundDiv_mono {n₁ d₁ n₂ d₂ : Nat} (h₁ : 0 < d₁) (h₂ : 0 < d₂) (h : n₁ * d₂ ≤ n₂ * d₁) :
    roundDiv n₁ d₁ ≤ roundDiv n₂ d₂ := by
  have hq : n₁ / d₁ ≤ n₂ / d₂ := by
    rw [Nat.le_div_iff_mul_le h₂]
    have : n₁ / d₁ * d₁ ≤ n₁ := Nat.div_mul_le_self n₁ d₁
    have h3 : n₁ / d₁ * d₂ * d₁ ≤ n₂ * d₁ := by
      calc n₁ / d₁ * d₂ * d₁ = n₁ / d₁ * d₁ * d₂ := by ring
        _ ≤ n₁ * d₂ := Nat.mul_le_mul_right _ this
        _ ≤ n₂ * d₁ := h
    exact Nat.le_of_mul_le_mul_right h3 h₁
  rcases Nat.lt_or_ge (n₁ / d₁) (n₂ / d₂) with hlt | hge
  · exact (roundDiv_le_succ n₁ d₁).trans (hlt.trans_le (div_le_roundDiv n₂ d₂) |> Nat.succ_le_of_lt)
  · have heq : n₁ / d₁ = n₂ / d₂ := le_antisymm hq hge
    have e₁ := Nat.div_add_mod n₁ d₁
    have e₂ := Nat.div_add_mod n₂ d₂
    rw [heq] at e₁
    have hrem : n₁ % d₁ * d₂ ≤ n₂ % d₂ * d₁ := by
      have h4 : (d₁ * (n₂ / d₂) + n₁ % d₁) * d₂ ≤ (d₂ * (n₂ / d₂) + n₂ % d₂) * d₁ := by
        rw [e₁, e₂]; exact h
      have h5 : d₁ * (n₂ / d₂) * d₂ = d₂ * (n₂ / d₂) * d₁ := by ring
      rw [Nat.add_mul, Nat.add_mul, h5] at h4
      omega
    have up : d₁ ≤ 2 * (n₁ % d₁) → d₂ ≤ 2 * (n₂ % d₂) := by
      intro hle
      by_contra hcon
      have hcon : 2 * (n₂ % d₂) < d₂ := by omega
      have : d₁ * d₂ ≤ 2 * (n₁ % d₁) * d₂ := Nat.mul_le_mul_right _ hle
      have h6 : 2 * (n₂ % d₂) * d₁ < d₂ * d₁ := Nat.mul_lt_mul_of_pos_right hcon h₁
      nlinarith
    have up' : d₁ < 2 * (n₁ % d₁) → d₂ < 2 * (n₂ % d₂) := by
      intro hle
      by_contra hcon
      have hcon : 2 * (n₂ % d₂) ≤ d₂ := by omega
      have : d₁ * d₂ < 2 * (n₁ % d₁) * d₂ := Nat.mul_lt_mul_of_pos_right hle h₂
      have h6 : 2 * (n₂ % d₂) * d₁ ≤ d₂ * d₁ := Nat.mul_le_mul_right _ hcon
      nlinarith
    have hp : n₂ / d₂ % 2 < 2 := Nat.mod_lt _ (by omega)
    simp only [roundDiv, heq]
    split_ifs <;> omega

/-! ### What a magnitude pattern is worth -/

/-- The worth of a magnitude pattern in units of 2^-1074. -/
def magnitudeUnits (m : Nat) : Nat :=
  if m / 2 ^ 52 = 0 then m % 2 ^ 52 else (2 ^ 52 + m % 2 ^ 52) * 2 ^ (m / 2 ^ 52 - 1)

theorem expField_eq (x : Binary64) : x.expField = x.magnitude / 2 ^ 52 := by
  unfold expField magnitude; have := x.bits.isLt; omega

theorem fracField_eq (x : Binary64) : x.fracField = x.magnitude % 2 ^ 52 := by
  unfold fracField magnitude; omega

theorem units_eq (x : Binary64) : x.units = magnitudeUnits x.magnitude := by
  unfold units magnitudeUnits; rw [expField_eq, fracField_eq]

/-- A pattern written as a scale and a significand is worth the significand, scaled; the significand may
be the full 2^53, which carries into the exponent field. -/
theorem magnitudeUnits_scaled {k m : Nat} (hm : m ≤ 2 ^ 53) (hk : k = 0 ∨ 2 ^ 52 ≤ m) :
    magnitudeUnits (k * 2 ^ 52 + m) = m * 2 ^ k := by
  unfold magnitudeUnits
  rcases Nat.lt_or_ge m (2 ^ 52) with h | h
  · have hk0 : k = 0 := by omega
    subst hk0
    rw [if_pos (by omega)]; omega
  · rcases Nat.lt_or_ge m (2 ^ 53) with h' | h'
    · have e1 : (k * 2 ^ 52 + m) / 2 ^ 52 = k + 1 := by omega
      have e2 : 2 ^ 52 + (k * 2 ^ 52 + m) % 2 ^ 52 = m := by omega
      rw [e1, if_neg (by omega), e2, Nat.add_sub_cancel]
    · have hm' : m = 2 ^ 53 := by omega
      have e1 : (k * 2 ^ 52 + m) / 2 ^ 52 = k + 2 := by omega
      have e2 : 2 ^ 52 + (k * 2 ^ 52 + m) % 2 ^ 52 = 2 ^ 52 := by omega
      rw [e1, if_neg (by omega), e2, hm']
      have : k + 2 - 1 = k + 1 := by omega
      rw [this, pow_succ]; ring

/-- Every pattern is a scale and a significand. -/
theorem magnitude_scaled (m : Nat) :
    ∃ k sig, m = k * 2 ^ 52 + sig ∧ sig < 2 ^ 53 ∧ (k = 0 ∨ 2 ^ 52 ≤ sig) := by
  rcases Nat.lt_or_ge m (2 ^ 53) with h | h
  · exact ⟨0, m, by omega, h, .inl rfl⟩
  · exact ⟨m / 2 ^ 52 - 1, m - (m / 2 ^ 52 - 1) * 2 ^ 52, by omega, by omega, .inr (by omega)⟩

/-! ### Rounding to a magnitude pattern -/

/-- The rounded pattern before it is cut at infinity. -/
def unboundedMagnitude (n d : Nat) : Nat :=
  (Nat.log2 (n / d) - 52) * 2 ^ 52 + roundDiv n (d * 2 ^ (Nat.log2 (n / d) - 52))

theorem roundMagnitude_eq (n d : Nat) :
    roundMagnitude n d = min (unboundedMagnitude n d) infMagnitude := rfl

/-- The significand of a quotient at its own scale lies in the format's range. -/
theorem quotient_range (n d : Nat) :
    n / (d * 2 ^ (Nat.log2 (n / d) - 52)) < 2 ^ 53 ∧
      (Nat.log2 (n / d) - 52 = 0 ∨ 2 ^ 52 ≤ n / (d * 2 ^ (Nat.log2 (n / d) - 52))) := by
  rw [← Nat.div_div_eq_div_mul]
  generalize hq : n / d = q
  constructor
  · rw [Nat.div_lt_iff_lt_mul (by positivity)]
    rcases Nat.eq_zero_or_pos q with h0 | hpos
    · subst h0; positivity
    · have hlt : q < 2 ^ (Nat.log2 q + 1) := Nat.lt_log2_self
      rw [← pow_add]
      exact hlt.trans_le (Nat.pow_le_pow_right (by omega) (by omega))
  · rcases Nat.eq_zero_or_pos (Nat.log2 q - 52) with h0 | hpos
    · exact .inl h0
    · right
      have hne : q ≠ 0 := by rintro rfl; simp at hpos
      have hle : 2 ^ Nat.log2 q ≤ q := Nat.log2_self_le hne
      rw [Nat.le_div_iff_mul_le (by positivity), ← pow_add]
      have : 52 + (Nat.log2 q - 52) = Nat.log2 q := by omega
      rw [this]; exact hle

theorem log2_mono {a b : Nat} (h : a ≤ b) : Nat.log2 a ≤ Nat.log2 b := by
  rcases Nat.eq_zero_or_pos a with h0 | hpos
  · subst h0; simp
  · by_contra hc
    have h1 : 2 ^ Nat.log2 a ≤ a := Nat.log2_self_le (by omega)
    have h2 : b < 2 ^ (Nat.log2 b + 1) := Nat.lt_log2_self
    have h3 : 2 ^ (Nat.log2 b + 1) ≤ 2 ^ Nat.log2 a := Nat.pow_le_pow_right (by omega) (by omega)
    omega

/-- A larger exact value never rounds to a smaller pattern. -/
theorem unboundedMagnitude_mono {n₁ d₁ n₂ d₂ : Nat} (h₁ : 0 < d₁) (h₂ : 0 < d₂)
    (h : n₁ * d₂ ≤ n₂ * d₁) : unboundedMagnitude n₁ d₁ ≤ unboundedMagnitude n₂ d₂ := by
  have hq : n₁ / d₁ ≤ n₂ / d₂ := by
    rw [Nat.le_div_iff_mul_le h₂]
    refine Nat.le_of_mul_le_mul_right ?_ h₁
    calc n₁ / d₁ * d₂ * d₁ = n₁ / d₁ * d₁ * d₂ := by ring
      _ ≤ n₁ * d₂ := Nat.mul_le_mul_right _ (Nat.div_mul_le_self n₁ d₁)
      _ ≤ n₂ * d₁ := h
  have hshift : Nat.log2 (n₁ / d₁) - 52 ≤ Nat.log2 (n₂ / d₂) - 52 :=
    Nat.sub_le_sub_right (log2_mono hq) 52
  have r₁ := quotient_range n₁ d₁
  have r₂ := quotient_range n₂ d₂
  unfold unboundedMagnitude
  generalize Nat.log2 (n₁ / d₁) - 52 = k₁ at *
  generalize Nat.log2 (n₂ / d₂) - 52 = k₂ at *
  rcases Nat.lt_or_ge k₁ k₂ with hlt | hge
  · have a := roundDiv_le_succ n₁ (d₁ * 2 ^ k₁)
    have b := div_le_roundDiv n₂ (d₂ * 2 ^ k₂)
    rcases r₂.2 with h0 | hbig
    · omega
    · omega
  · have hk : k₁ = k₂ := by omega
    subst hk
    have hmono : roundDiv n₁ (d₁ * 2 ^ k₁) ≤ roundDiv n₂ (d₂ * 2 ^ k₁) := by
      refine roundDiv_mono (by positivity) (by positivity) ?_
      calc n₁ * (d₂ * 2 ^ k₁) = n₁ * d₂ * 2 ^ k₁ := by ring
        _ ≤ n₂ * d₁ * 2 ^ k₁ := Nat.mul_le_mul_right _ h
        _ = n₂ * (d₁ * 2 ^ k₁) := by ring
    omega

/-- A larger exact value never rounds to a smaller pattern, infinity included. -/
theorem roundMagnitude_mono {n₁ d₁ n₂ d₂ : Nat} (h₁ : 0 < d₁) (h₂ : 0 < d₂)
    (h : n₁ * d₂ ≤ n₂ * d₁) : roundMagnitude n₁ d₁ ≤ roundMagnitude n₂ d₂ := by
  rw [roundMagnitude_eq, roundMagnitude_eq]
  have := unboundedMagnitude_mono h₁ h₂ h
  omega

/-- A value the format holds rounds to its own pattern. -/
theorem unboundedMagnitude_units {d : Nat} (m : Nat) (hd : 0 < d) :
    unboundedMagnitude (magnitudeUnits m * d) d = m := by
  obtain ⟨k, sig, rfl, hlt, hk⟩ := magnitude_scaled m
  rw [magnitudeUnits_scaled (by omega) hk]
  unfold unboundedMagnitude
  rw [Nat.mul_div_cancel _ hd]
  have hs : Nat.log2 (sig * 2 ^ k) - 52 = k := by
    rcases hk with h0 | hbig
    · subst h0
      have : sig * 2 ^ 0 < 2 ^ 53 := by omega
      have h2 : Nat.log2 (sig * 2 ^ 0) ≤ Nat.log2 (2 ^ 53 - 1) := log2_mono (by omega)
      have h3 : Nat.log2 (2 ^ 53 - 1) = 52 := by decide
      omega
    · have hne : sig * 2 ^ k ≠ 0 := by positivity
      have : Nat.log2 (sig * 2 ^ k) = 52 + k := by
        rw [Nat.log2_eq_iff hne]
        constructor
        · rw [pow_add]; exact Nat.mul_le_mul_right _ hbig
        · have : 2 ^ (52 + k + 1) = 2 ^ 53 * 2 ^ k := by rw [← pow_add]; ring
          rw [this]; exact Nat.mul_lt_mul_of_pos_right hlt (by positivity)
      omega
  rw [hs]
  have : sig * 2 ^ k * d = sig * (d * 2 ^ k) := by ring
  rw [this, roundDiv_mul_self _ (by positivity)]

/-- A finite number's exact magnitude rounds to its own pattern. -/
theorem roundMagnitude_units {d : Nat} (x : Binary64) (hx : x.isFinite = true) (hd : 0 < d) :
    roundMagnitude (x.units * d) d = x.magnitude := by
  rw [roundMagnitude_eq, units_eq, unboundedMagnitude_units _ hd]
  have h := expField_eq x
  have hlt : x.magnitude < 2 ^ 63 := Nat.mod_lt _ (by positivity)
  simp only [isFinite, bne_iff_ne] at hx
  unfold infMagnitude
  omega

/-! ### Patterns from a sign and a magnitude -/

theorem ofMagnitude_magnitude {neg : Bool} {m : Nat} (hm : m < 2 ^ 63) :
    (ofMagnitude neg m).magnitude = m := by
  unfold ofMagnitude magnitude
  rw [BitVec.toNat_ofNat]
  cases neg <;> simp <;> omega

theorem sign_eq (x : Binary64) : x.sign = decide (2 ^ 63 ≤ x.bits.toNat) := by
  unfold sign; rw [BitVec.msb_eq_decide]

theorem ofMagnitude_sign {neg : Bool} {m : Nat} (hm : m < 2 ^ 63) : (ofMagnitude neg m).sign = neg := by
  rw [sign_eq]
  unfold ofMagnitude
  rw [BitVec.toNat_ofNat]
  cases neg <;> simp <;> omega

theorem roundMagnitude_lt (n d : Nat) : roundMagnitude n d < 2 ^ 63 := by
  rw [roundMagnitude_eq]; unfold infMagnitude; omega

@[simp] theorem round_magnitude (neg : Bool) (n d : Nat) :
    (round neg n d).magnitude = roundMagnitude n d := ofMagnitude_magnitude (roundMagnitude_lt n d)

@[simp] theorem round_sign (neg : Bool) (n d : Nat) : (round neg n d).sign = neg :=
  ofMagnitude_sign (roundMagnitude_lt n d)

/-- A number is its sign and its magnitude pattern. -/
theorem ext_sign_magnitude {x y : Binary64} (hs : x.sign = y.sign) (hm : x.magnitude = y.magnitude) :
    x = y := by
  obtain ⟨a⟩ := x
  obtain ⟨b⟩ := y
  rw [sign_eq, sign_eq, decide_eq_decide] at hs
  unfold magnitude at hm
  congr 1
  apply BitVec.eq_of_toNat_eq
  have ha := a.isLt
  have hb := b.isLt
  dsimp only at *
  omega

theorem isFinite_iff (x : Binary64) : x.isFinite = true ↔ x.magnitude < infMagnitude := by
  have h := expField_eq x
  have hlt : x.magnitude < 2 ^ 63 := Nat.mod_lt _ (by positivity)
  simp only [isFinite, bne_iff_ne]
  unfold infMagnitude
  omega

theorem not_isNaN_of_isFinite {x : Binary64} (h : x.isFinite = true) : x.isNaN = false := by
  simp only [isFinite, bne_iff_ne] at h
  simp [isNaN, h]

theorem not_isInf_of_isFinite {x : Binary64} (h : x.isFinite = true) : x.isInf = false := by
  simp only [isFinite, bne_iff_ne] at h
  simp [isInf, h]

/-- Patterns of finite worth are ordered as their worths. -/
theorem magnitudeUnits_lt {a b : Nat} (h : a < b) : magnitudeUnits a < magnitudeUnits b := by
  by_contra hc
  have h1 := unboundedMagnitude_mono (n₁ := magnitudeUnits b * 1) (d₁ := 1)
    (n₂ := magnitudeUnits a * 1) (d₂ := 1) (by omega) (by omega) (by omega)
  rw [unboundedMagnitude_units _ (by omega), unboundedMagnitude_units _ (by omega)] at h1
  omega

theorem magnitudeUnits_le_iff {a b : Nat} : magnitudeUnits a ≤ magnitudeUnits b ↔ a ≤ b := by
  constructor
  · intro h
    by_contra hc
    have := magnitudeUnits_lt (show b < a by omega)
    omega
  · intro h
    rcases Nat.lt_or_ge a b with hlt | hge
    · exact (magnitudeUnits_lt hlt).le
    · rw [le_antisymm h hge]

/-! ### The order -/

theorem lt_of_lt_of_le {x y z : Binary64} (h : x.lt y = true) (h' : y.le z = true) : x.lt z = true := by
  simp only [lt, le, Bool.and_eq_true, Bool.not_eq_true', decide_eq_true_eq] at h h' ⊢
  exact ⟨⟨h.1.1, h'.1.2⟩, by omega⟩

theorem le_of_le_of_le {x y z : Binary64} (h : x.le y = true) (h' : y.le z = true) : x.le z = true := by
  simp only [le, Bool.and_eq_true, Bool.not_eq_true', decide_eq_true_eq] at h h' ⊢
  exact ⟨⟨h.1.1, h'.1.2⟩, by omega⟩

theorem le_of_lt {x y : Binary64} (h : x.lt y = true) : x.le y = true := by
  simp only [lt, le, Bool.and_eq_true, Bool.not_eq_true', decide_eq_true_eq] at h ⊢
  exact ⟨h.1, by omega⟩

theorem not_lt_of_le {x y : Binary64} (h : y.le x = true) : x.lt y = false := by
  cases h' : x.lt y with
  | false => rfl
  | true =>
    simp only [lt, le, Bool.and_eq_true, Bool.not_eq_true', decide_eq_true_eq] at h h'
    omega

/-! ### The operations on finite numbers -/

theorem addAs_of_finite {op : FloatOp} {x y : Binary64} (hx : x.isFinite = true)
    (hy : y.isFinite = true) : addAs op x y = addFinite x y := by
  unfold addAs
  rw [not_isNaN_of_isFinite hx, not_isNaN_of_isFinite hy, not_isInf_of_isFinite hx, not_isInf_of_isFinite hy]
  simp

theorem mul_of_finite {x y : Binary64} (hx : x.isFinite = true) (hy : y.isFinite = true) :
    x.mul y = round (x.sign != y.sign) (x.units * y.units) (2 ^ 1074) := by
  unfold mul
  rw [not_isNaN_of_isFinite hx, not_isNaN_of_isFinite hy, not_isInf_of_isFinite hx, not_isInf_of_isFinite hy]
  simp only [Bool.or_self, Bool.false_eq_true, if_false]

theorem div_of_finite {x y : Binary64} (hx : x.isFinite = true) (hy : y.isFinite = true)
    (h0 : y.magnitude ≠ 0) :
    x.div y = round (x.sign != y.sign) (x.units * 2 ^ 1074) y.units := by
  unfold div
  rw [not_isNaN_of_isFinite hx, not_isNaN_of_isFinite hy, not_isInf_of_isFinite hx, not_isInf_of_isFinite hy]
  simp only [Bool.or_self, Bool.false_eq_true, if_false, if_neg h0]

theorem toUnits_of_not_sign {x : Binary64} (h : x.sign = false) : x.toUnits = x.units := by
  simp [toUnits, h]

theorem toUnits_of_sign {x : Binary64} (h : x.sign = true) : x.toUnits = -(x.units : Int) := by
  simp [toUnits, h]

/-- Changing the sign keeps the magnitude. -/
@[simp] theorem neg_magnitude (y : Binary64) : y.neg.magnitude = y.magnitude := by
  have h : (y.bits ^^^ 0x8000000000000000#64).setWidth 63 = y.bits.setWidth 63 := by
    ext i hi
    simp [BitVec.getElem_setWidth]
  have h' := congrArg BitVec.toNat h
  rw [BitVec.toNat_setWidth, BitVec.toNat_setWidth] at h'
  exact h'

@[simp] theorem neg_sign (y : Binary64) : y.neg.sign = !y.sign := by
  have h : (0x8000000000000000#64).msb = true := by decide
  have h' : y.neg.sign = (y.bits.msb ^^ (0x8000000000000000#64).msb) := BitVec.msb_xor
  rw [h', h]
  cases hb : y.bits.msb <;> simp [sign, hb]

/-- A whole number below 2^53, scaled by a power of two within the format, is worth a pattern below
infinity. -/
theorem exists_magnitude {n : Nat} (hn : n < 2 ^ 53) {j : Nat} (hj : j ≤ 1074) :
    ∃ m, magnitudeUnits m = n * 2 ^ j ∧ m < infMagnitude := by
  induction j generalizing n with
  | zero =>
    have h := magnitudeUnits_scaled (k := 0) hn.le (.inl rfl)
    exact ⟨n, by simpa using h, by unfold infMagnitude; omega⟩
  | succ j ih =>
    rcases Nat.lt_or_ge n (2 ^ 52) with h | h
    · obtain ⟨m, h1, h2⟩ := ih (n := 2 * n) (by omega) (by omega)
      exact ⟨m, by rw [h1, pow_succ]; ring, h2⟩
    · exact ⟨(j + 1) * 2 ^ 52 + n, magnitudeUnits_scaled hn.le (.inr h), by unfold infMagnitude; omega⟩

/-! ### NaN and infinity -/

/-- The free NaN pattern is a NaN, whatever its sign and payload. -/
@[simp] theorem nan_isNaN (op : FloatOp) (x y : Binary64) : (nan op x y).isNaN = true := by
  unfold nan isNaN expField fracField
  generalize Config.nanBits op x y = b
  have hc : ∀ i < 11, (0x7FF8000000000000#64).getLsbD (52 + i) = true ∧ (2047#11).getLsbD i = true := by decide
  have he : (b ||| 0x7FF8000000000000#64).extractLsb' 52 11 = 2047#11 := by
    ext i hi
    rw [BitVec.getElem_extractLsb', BitVec.getLsbD_or, (hc i hi).1, ← BitVec.getLsbD_eq_getElem, (hc i hi).2,
      Bool.or_true]
  have he' := congrArg BitVec.toNat he
  rw [BitVec.extractLsb'_toNat, Nat.shiftRight_eq_div_pow] at he'
  have hf : (b ||| 0x7FF8000000000000#64).getLsbD 51 = true := by
    rw [BitVec.getLsbD_or, Bool.or_eq_true]
    exact .inr (by decide)
  rw [BitVec.getLsbD, Nat.testBit_eq_decide_div_mod_eq, decide_eq_true_eq] at hf
  have he'' : (b ||| 0x7FF8000000000000#64).toNat / 2 ^ 52 % 2 ^ 11 = 2047 := he'
  have hn : (b ||| 0x7FF8000000000000#64).toNat % 2 ^ 52 ≠ 0 := by
    generalize (b ||| 0x7FF8000000000000#64).toNat = n at hf
    omega
  rw [Bool.and_eq_true, beq_iff_eq, bne_iff_ne]
  exact ⟨he'', hn⟩

theorem inf_magnitude (neg : Bool) : (inf neg).magnitude = infMagnitude :=
  ofMagnitude_magnitude (by decide)

theorem inf_sign (neg : Bool) : (inf neg).sign = neg := ofMagnitude_sign (by decide)

end Sys2Proof.Binary64
end

