-- ==== Sys2Proof/Laws/State.lean ====
section
/-! SUPPORT. One lemma per field of State per update (true by rfl), so that no later proof unfolds a record
update; then one lemma per field per phase. -/

namespace Sys2Proof.Machine

variable (s : State)

/-! ### setBoot -/

@[simp] theorem setBoot_params (b : BootSequencer) : (s.setBoot b).params = s.params := rfl
@[simp] theorem setBoot_boot (b : BootSequencer) : (s.setBoot b).boot = b := rfl
@[simp] theorem setBoot_est (b : BootSequencer) : (s.setBoot b).est = s.est := rfl
@[simp] theorem setBoot_ctl (b : BootSequencer) : (s.setBoot b).ctl = s.ctl := rfl
@[simp] theorem setBoot_pwm (b : BootSequencer) : (s.setBoot b).pwm = s.pwm := rfl
@[simp] theorem setBoot_alarm (b : BootSequencer) : (s.setBoot b).alarm = s.alarm := rfl
@[simp] theorem setBoot_inbox (b : BootSequencer) : (s.setBoot b).inbox = s.inbox := rfl
@[simp] theorem setBoot_events (b : BootSequencer) : (s.setBoot b).events = s.events := rfl

/-! ### setEst -/

@[simp] theorem setEst_params (e : Estimator) : (s.setEst e).params = s.params := rfl
@[simp] theorem setEst_boot (e : Estimator) : (s.setEst e).boot = s.boot := rfl
@[simp] theorem setEst_est (e : Estimator) : (s.setEst e).est = e := rfl
@[simp] theorem setEst_ctl (e : Estimator) : (s.setEst e).ctl = s.ctl := rfl
@[simp] theorem setEst_pwm (e : Estimator) : (s.setEst e).pwm = s.pwm := rfl
@[simp] theorem setEst_alarm (e : Estimator) : (s.setEst e).alarm = s.alarm := rfl
@[simp] theorem setEst_inbox (e : Estimator) : (s.setEst e).inbox = s.inbox := rfl
@[simp] theorem setEst_events (e : Estimator) : (s.setEst e).events = s.events := rfl

/-! ### setCtl -/

@[simp] theorem setCtl_params (c : StageController) : (s.setCtl c).params = s.params := rfl
@[simp] theorem setCtl_boot (c : StageController) : (s.setCtl c).boot = s.boot := rfl
@[simp] theorem setCtl_est (c : StageController) : (s.setCtl c).est = s.est := rfl
@[simp] theorem setCtl_ctl (c : StageController) : (s.setCtl c).ctl = c := rfl
@[simp] theorem setCtl_pwm (c : StageController) : (s.setCtl c).pwm = s.pwm := rfl
@[simp] theorem setCtl_alarm (c : StageController) : (s.setCtl c).alarm = s.alarm := rfl
@[simp] theorem setCtl_inbox (c : StageController) : (s.setCtl c).inbox = s.inbox := rfl
@[simp] theorem setCtl_events (c : StageController) : (s.setCtl c).events = s.events := rfl

/-! ### setPwm -/

@[simp] theorem setPwm_params (d : PwmDriver) : (s.setPwm d).params = s.params := rfl
@[simp] theorem setPwm_boot (d : PwmDriver) : (s.setPwm d).boot = s.boot := rfl
@[simp] theorem setPwm_est (d : PwmDriver) : (s.setPwm d).est = s.est := rfl
@[simp] theorem setPwm_ctl (d : PwmDriver) : (s.setPwm d).ctl = s.ctl := rfl
@[simp] theorem setPwm_pwm (d : PwmDriver) : (s.setPwm d).pwm = d := rfl
@[simp] theorem setPwm_alarm (d : PwmDriver) : (s.setPwm d).alarm = s.alarm := rfl
@[simp] theorem setPwm_inbox (d : PwmDriver) : (s.setPwm d).inbox = s.inbox := rfl
@[simp] theorem setPwm_events (d : PwmDriver) : (s.setPwm d).events = s.events := rfl

/-! ### setAlarm -/

@[simp] theorem setAlarm_params (a : AlarmMonitor) : (s.setAlarm a).params = s.params := rfl
@[simp] theorem setAlarm_boot (a : AlarmMonitor) : (s.setAlarm a).boot = s.boot := rfl
@[simp] theorem setAlarm_est (a : AlarmMonitor) : (s.setAlarm a).est = s.est := rfl
@[simp] theorem setAlarm_ctl (a : AlarmMonitor) : (s.setAlarm a).ctl = s.ctl := rfl
@[simp] theorem setAlarm_pwm (a : AlarmMonitor) : (s.setAlarm a).pwm = s.pwm := rfl
@[simp] theorem setAlarm_alarm (a : AlarmMonitor) : (s.setAlarm a).alarm = a := rfl
@[simp] theorem setAlarm_inbox (a : AlarmMonitor) : (s.setAlarm a).inbox = s.inbox := rfl
@[simp] theorem setAlarm_events (a : AlarmMonitor) : (s.setAlarm a).events = s.events := rfl

/-! ### setInbox -/

@[simp] theorem setInbox_params (bs : List Bundle) : (s.setInbox bs).params = s.params := rfl
@[simp] theorem setInbox_boot (bs : List Bundle) : (s.setInbox bs).boot = s.boot := rfl
@[simp] theorem setInbox_est (bs : List Bundle) : (s.setInbox bs).est = s.est := rfl
@[simp] theorem setInbox_ctl (bs : List Bundle) : (s.setInbox bs).ctl = s.ctl := rfl
@[simp] theorem setInbox_pwm (bs : List Bundle) : (s.setInbox bs).pwm = s.pwm := rfl
@[simp] theorem setInbox_alarm (bs : List Bundle) : (s.setInbox bs).alarm = s.alarm := rfl
@[simp] theorem setInbox_inbox (bs : List Bundle) : (s.setInbox bs).inbox = bs := rfl
@[simp] theorem setInbox_events (bs : List Bundle) : (s.setInbox bs).events = s.events := rfl

/-! ### The event output -/

@[simp] theorem clearEvents_params : s.clearEvents.params = s.params := rfl
@[simp] theorem clearEvents_boot : s.clearEvents.boot = s.boot := rfl
@[simp] theorem clearEvents_est : s.clearEvents.est = s.est := rfl
@[simp] theorem clearEvents_ctl : s.clearEvents.ctl = s.ctl := rfl
@[simp] theorem clearEvents_pwm : s.clearEvents.pwm = s.pwm := rfl
@[simp] theorem clearEvents_alarm : s.clearEvents.alarm = s.alarm := rfl
@[simp] theorem clearEvents_inbox : s.clearEvents.inbox = s.inbox := rfl
@[simp] theorem clearEvents_events : s.clearEvents.events = [] := rfl
@[simp] theorem emit_params (e : Event) : (s.emit e).params = s.params := rfl
@[simp] theorem emit_boot (e : Event) : (s.emit e).boot = s.boot := rfl
@[simp] theorem emit_est (e : Event) : (s.emit e).est = s.est := rfl
@[simp] theorem emit_ctl (e : Event) : (s.emit e).ctl = s.ctl := rfl
@[simp] theorem emit_pwm (e : Event) : (s.emit e).pwm = s.pwm := rfl
@[simp] theorem emit_alarm (e : Event) : (s.emit e).alarm = s.alarm := rfl
@[simp] theorem emit_inbox (e : Event) : (s.emit e).inbox = s.inbox := rfl
@[simp] theorem emit_events (e : Event) : (s.emit e).events = s.events ++ [e] := rfl

/-! ### Taking the exception (R10, R281): it writes `sample_status` and the event output, nothing else -/

@[simp] theorem raiseSensorFault_params (code : SensorFault) :
    (s.raiseSensorFault code).params = s.params := rfl
@[simp] theorem raiseSensorFault_boot (code : SensorFault) :
    (s.raiseSensorFault code).boot = s.boot := rfl
@[simp] theorem raiseSensorFault_est (code : SensorFault) :
    (s.raiseSensorFault code).est = { s.est with sampleStatus := .fault code } := rfl
@[simp] theorem raiseSensorFault_ctl (code : SensorFault) :
    (s.raiseSensorFault code).ctl = s.ctl := rfl
@[simp] theorem raiseSensorFault_pwm (code : SensorFault) :
    (s.raiseSensorFault code).pwm = s.pwm := rfl
@[simp] theorem raiseSensorFault_alarm (code : SensorFault) :
    (s.raiseSensorFault code).alarm = s.alarm := rfl
@[simp] theorem raiseSensorFault_inbox (code : SensorFault) :
    (s.raiseSensorFault code).inbox = s.inbox := rfl
@[simp] theorem raiseSensorFault_events (code : SensorFault) :
    (s.raiseSensorFault code).events = s.events ++ [.warn code] := rfl

/-! ### NOP and RESET -/

@[simp] theorem noOperation_params : s.noOperation.params = s.params := rfl
@[simp] theorem noOperation_boot : s.noOperation.boot = s.boot := rfl
@[simp] theorem noOperation_est : s.noOperation.est = s.est := rfl
@[simp] theorem noOperation_ctl : s.noOperation.ctl = s.ctl := rfl
@[simp] theorem noOperation_pwm : s.noOperation.pwm = s.pwm := rfl
@[simp] theorem noOperation_alarm : s.noOperation.alarm = s.alarm := rfl
@[simp] theorem noOperation_inbox : s.noOperation.inbox = s.inbox := rfl
@[simp] theorem noOperation_events : s.noOperation.events = [] := rfl
@[simp] theorem resetRegisters_params : s.resetRegisters.params = s.params := rfl
@[simp] theorem resetRegisters_boot : s.resetRegisters.boot = .reset := rfl
@[simp] theorem resetRegisters_est : s.resetRegisters.est = .reset := rfl
@[simp] theorem resetRegisters_ctl : s.resetRegisters.ctl = .reset := rfl
@[simp] theorem resetRegisters_pwm : s.resetRegisters.pwm = .reset := rfl
@[simp] theorem resetRegisters_alarm : s.resetRegisters.alarm = .reset := rfl
@[simp] theorem resetRegisters_inbox : s.resetRegisters.inbox = s.inbox := rfl
@[simp] theorem resetRegisters_events : s.resetRegisters.events = [] := rfl

/-! ### The phases that write one unit each (R56) -/

@[simp] theorem control_params (btn : Bool) (now : Millis) :
    (Machine.control btn now s).params = s.params := rfl
@[simp] theorem control_boot (btn : Bool) (now : Millis) :
    (Machine.control btn now s).boot = s.boot := rfl
@[simp] theorem control_est (btn : Bool) (now : Millis) :
    (Machine.control btn now s).est = s.est := rfl
@[simp] theorem control_ctl (btn : Bool) (now : Millis) :
    (Machine.control btn now s).ctl = controlled s.params s.est btn now s.ctl := rfl
@[simp] theorem control_pwm (btn : Bool) (now : Millis) :
    (Machine.control btn now s).pwm = s.pwm := rfl
@[simp] theorem control_alarm (btn : Bool) (now : Millis) :
    (Machine.control btn now s).alarm = s.alarm := rfl
@[simp] theorem control_inbox (btn : Bool) (now : Millis) :
    (Machine.control btn now s).inbox = s.inbox := rfl
@[simp] theorem control_events (btn : Bool) (now : Millis) :
    (Machine.control btn now s).events = s.events := rfl

@[simp] theorem alarm_params (door : Bool) (now : Millis) :
    (Machine.alarm door now s).params = s.params := rfl
@[simp] theorem alarm_boot (door : Bool) (now : Millis) :
    (Machine.alarm door now s).boot = s.boot := rfl
@[simp] theorem alarm_est (door : Bool) (now : Millis) :
    (Machine.alarm door now s).est = s.est := rfl
@[simp] theorem alarm_ctl (door : Bool) (now : Millis) :
    (Machine.alarm door now s).ctl = s.ctl := rfl
@[simp] theorem alarm_pwm (door : Bool) (now : Millis) :
    (Machine.alarm door now s).pwm = s.pwm := rfl
@[simp] theorem alarm_alarm (door : Bool) (now : Millis) :
    (Machine.alarm door now s).alarm = { s.alarm with alarmActive := gatedAlarm door now s.ctl } := rfl
@[simp] theorem alarm_inbox (door : Bool) (now : Millis) :
    (Machine.alarm door now s).inbox = s.inbox := rfl
@[simp] theorem alarm_events (door : Bool) (now : Millis) :
    (Machine.alarm door now s).events = s.events := rfl

@[simp] theorem pwm_params (now : Millis) :
    (Machine.pwm now s).params = s.params := rfl
@[simp] theorem pwm_boot (now : Millis) :
    (Machine.pwm now s).boot = s.boot := rfl
@[simp] theorem pwm_est (now : Millis) :
    (Machine.pwm now s).est = s.est := rfl
@[simp] theorem pwm_ctl (now : Millis) :
    (Machine.pwm now s).ctl = s.ctl := rfl
@[simp] theorem pwm_pwm (now : Millis) :
    (Machine.pwm now s).pwm = driven s.params s.ctl.topPower s.ctl.botPower now s.pwm := rfl
@[simp] theorem pwm_alarm (now : Millis) :
    (Machine.pwm now s).alarm = s.alarm := rfl
@[simp] theorem pwm_inbox (now : Millis) :
    (Machine.pwm now s).inbox = s.inbox := rfl
@[simp] theorem pwm_events (now : Millis) :
    (Machine.pwm now s).events = s.events := rfl

@[simp] theorem beep_params (now : Millis) :
    (Machine.beep now s).params = s.params := rfl
@[simp] theorem beep_boot (now : Millis) :
    (Machine.beep now s).boot = s.boot := rfl
@[simp] theorem beep_est (now : Millis) :
    (Machine.beep now s).est = s.est := rfl
@[simp] theorem beep_ctl (now : Millis) :
    (Machine.beep now s).ctl = s.ctl := rfl
@[simp] theorem beep_pwm (now : Millis) :
    (Machine.beep now s).pwm = s.pwm := rfl
@[simp] theorem beep_alarm (now : Millis) :
    (Machine.beep now s).alarm = beeped now s.alarm := rfl
@[simp] theorem beep_inbox (now : Millis) :
    (Machine.beep now s).inbox = s.inbox := rfl
@[simp] theorem beep_events (now : Millis) :
    (Machine.beep now s).events = s.events := rfl

end Sys2Proof.Machine
end

