-- ==== Sys2Proof/Laws/Phases.lean ====
section
/-! SUPPORT. What the commands can do, said once: the frame of each phase, the registers after BODY, and the
three cases of a TICK. Later proofs cite these and unfold no phase. -/

namespace Sys2Proof.Machine

/-! ### ESTIMATE (R150) -/

section
variable (raw : AdcCode) (s : State)

@[simp] theorem estimate_params : (estimate raw s).params = s.params := by
  unfold estimate acceptSample rejectSample; split <;> [(dsimp only; split <;> simp); simp]

@[simp] theorem estimate_boot : (estimate raw s).boot = s.boot := by
  unfold estimate acceptSample rejectSample; split <;> [(dsimp only; split <;> simp); simp]

@[simp] theorem estimate_ctl : (estimate raw s).ctl = s.ctl := by
  unfold estimate acceptSample rejectSample; split <;> [(dsimp only; split <;> simp); simp]

@[simp] theorem estimate_pwm : (estimate raw s).pwm = s.pwm := by
  unfold estimate acceptSample rejectSample; split <;> [(dsimp only; split <;> simp); simp]

@[simp] theorem estimate_alarm : (estimate raw s).alarm = s.alarm := by
  unfold estimate acceptSample rejectSample; split <;> [(dsimp only; split <;> simp); simp]

@[simp] theorem estimate_inbox : (estimate raw s).inbox = s.inbox := by
  unfold estimate acceptSample rejectSample; split <;> [(dsimp only; split <;> simp); simp]

/-- A valid sample that fills the window (R155). -/
theorem acceptedEstimator_of_full {p : Params} {t : Binary64} {e : Estimator}
    (h : (accumulate t e).cnt.toNat = p.nAvg) : acceptedEstimator p t e = publishMean p (accumulate t e) :=
  if_pos h

/-- A valid sample that leaves the window open (R154). -/
theorem acceptedEstimator_of_open {p : Params} {t : Binary64} {e : Estimator}
    (h : (accumulate t e).cnt.toNat ≠ p.nAvg) : acceptedEstimator p t e = accumulate t e :=
  if_neg h

theorem acceptSample_of_full {t : Binary64} {s : State}
    (h : (accumulate t s.est).cnt.toNat = s.params.nAvg) :
    acceptSample t s = (s.setEst (publishMean s.params (accumulate t s.est))).emit
      (.diag (publishMean s.params (accumulate t s.est)).tempK) := by
  rw [← acceptedEstimator_of_full h]; exact if_pos h

theorem acceptSample_of_open {t : Binary64} {s : State}
    (h : (accumulate t s.est).cnt.toNat ≠ s.params.nAvg) :
    acceptSample t s = s.setEst (accumulate t s.est) := by
  rw [← acceptedEstimator_of_open h]; exact if_neg h

/-- ESTIMATE reads and writes nothing of the inbox. -/
theorem estimate_setInbox (bs : List Bundle) :
    estimate raw (s.setInbox bs) = (estimate raw s).setInbox bs := by
  unfold estimate
  rw [setInbox_params]
  split
  · rename_i t _
    by_cases h : (accumulate t s.est).cnt.toNat = s.params.nAvg
    · rw [acceptSample_of_full h, acceptSample_of_full (s := s.setInbox bs) h]; rfl
    · rw [acceptSample_of_open h, acceptSample_of_open (s := s.setInbox bs) h]; rfl
  · rfl

/-- ESTIMATE on a valid sample (R154, R155). -/
theorem estimate_of_valid {t : Binary64} (h : sampleGuard s.params raw = .ok t) :
    (estimate raw s).est = acceptedEstimator s.params t s.est ∧
      (estimate raw s).events =
        if (accumulate t s.est).cnt.toNat = s.params.nAvg
        then s.events ++ [.diag (acceptedEstimator s.params t s.est).tempK] else s.events := by
  unfold estimate acceptSample
  rw [h]
  dsimp only
  split <;> simp

/-- ESTIMATE on an invalid sample (R156, R157): the SensorFault is taken and counted. -/
theorem estimate_of_invalid {code : SensorFault} (h : sampleGuard s.params raw = .error code) :
    (estimate raw s).est = countInvalid s.params { s.est with sampleStatus := .fault code } ∧
      (estimate raw s).events = s.events ++ [.warn code] := by
  unfold estimate rejectSample
  rw [h]
  simp

end

/-! ### The sample guard (R153) -/

theorem sampleGuard_ok_iff {p : Params} {raw : AdcCode} {t : Binary64} :
    sampleGuard p raw = .ok t ↔
      raw ≠ 0 ∧ raw.toNat < p.adcMax ∧ Binary64.posZero.lt (lin p raw) = true ∧
        (lin p raw).lt tMaxK = true ∧ t = lin p raw := by
  unfold sampleGuard
  by_cases h1 : raw = 0
  · simp [h1]
  · by_cases h2 : p.adcMax ≤ raw.toNat
    · simp only [if_neg h1, if_pos h2, reduceCtorEq, false_iff]
      omega
    · rw [if_neg h1, if_neg h2]
      have h2' := Nat.not_le.mp h2
      by_cases h3 : (Binary64.posZero.lt (lin p raw) && (lin p raw).lt tMaxK) = true
      · rw [if_pos h3]
        rw [Bool.and_eq_true] at h3
        exact ⟨fun h => ⟨h1, h2', h3.1, h3.2, by injection h with h; exact h.symm⟩,
          fun h => by rw [h.2.2.2.2]⟩
      · rw [if_neg h3]
        rw [Bool.and_eq_true] at h3
        exact ⟨fun h => (by cases h), fun h => absurd ⟨h.2.2.1, h.2.2.2.1⟩ h3⟩

/-! ### The boot sequence (R312, R313) -/

theorem bootStep_waitFirst {s : State} (now : Millis) (h : s.boot.phase = .waitFirst) :
    bootStep now s = s.setBoot { phase := .booting, startMs := now } := by
  unfold bootStep; rw [h]

theorem bootStep_booting {s : State} (now : Millis) (h : s.boot.phase = .booting) :
    bootStep now s = if elapsedMs now s.boot.startMs < bootDelayMs then s
      else (bootEnd now s).setBoot { s.boot with phase := .run } := by
  unfold bootStep; rw [h]

/-! ### BODY (R135) -/

section
variable (raw : AdcCode) (btn door : Bool) (now : Millis) (s : State)

@[simp] theorem body_params : (body raw btn door now s).params = s.params := by simp [body]

@[simp] theorem body_boot : (body raw btn door now s).boot = s.boot := by simp [body]

@[simp] theorem body_inbox : (body raw btn door now s).inbox = s.inbox := by simp [body]

@[simp] theorem body_est : (body raw btn door now s).est = (estimate raw s).est := by simp [body]

@[simp] theorem body_events : (body raw btn door now s).events = (estimate raw s).events := by
  simp [body]

/-- BODY reads and writes nothing of the inbox. -/
theorem body_setInbox (bs : List Bundle) :
    body raw btn door now (s.setInbox bs) = (body raw btn door now s).setInbox bs := by
  unfold body; rw [estimate_setInbox]; rfl

theorem body_ctl : (body raw btn door now s).ctl =
    controlled s.params (body raw btn door now s).est btn now s.ctl := by simp [body]

theorem body_pwm : (body raw btn door now s).pwm =
    driven s.params (body raw btn door now s).ctl.topPower (body raw btn door now s).ctl.botPower now
      s.pwm := by simp [body]

theorem body_alarm : (body raw btn door now s).alarm =
    beeped now { s.alarm with alarmActive := gatedAlarm door now (body raw btn door now s).ctl } := by
  simp [body]

end

/-! ### The commands -/

section
variable {raw : AdcCode} {btn door : Bool} {now : Millis} {s : State}

/-- A TICK once the boot has ended (R131). -/
theorem ticked_run (h : s.boot.phase = .run) :
    ticked raw btn door now s = body raw btn door now s.clearEvents := by
  simp [ticked, afterBoot, h]

/-- The first TICK after reset (R312). -/
theorem ticked_waitFirst (h : s.boot.phase = .waitFirst) :
    ticked raw btn door now s = s.clearEvents.setBoot { phase := .booting, startMs := now } := by
  have h' : s.clearEvents.boot.phase = .waitFirst := h
  simp [ticked, afterBoot, h, bootStep_waitFirst now h']

/-- A TICK within the boot delay (R312). -/
theorem ticked_booting (h : s.boot.phase = .booting)
    (he : elapsedMs now s.boot.startMs < bootDelayMs) :
    ticked raw btn door now s = s.clearEvents := by
  have h' : s.clearEvents.boot.phase = .booting := h
  simp [ticked, afterBoot, h, bootStep_booting now h', he]

/-- The TICK that ends the boot and runs BODY (R312, R313). -/
theorem ticked_bootEnd (h : s.boot.phase = .booting)
    (he : bootDelayMs ≤ elapsedMs now s.boot.startMs) :
    ticked raw btn door now s =
      body raw btn door now ((bootEnd now s.clearEvents).setBoot { s.boot with phase := .run }) := by
  have h' : s.clearEvents.boot.phase = .booting := h
  simp [ticked, afterBoot, h, bootStep_booting now h', Nat.not_lt.mpr he]

/-- Every TICK is one of these: it starts the boot delay, it waits in it, or it runs BODY from a state
whose boot has ended and whose event list is empty. -/
theorem ticked_cases (raw : AdcCode) (btn door : Bool) (now : Millis) (s : State) :
    (s.boot.phase = .waitFirst ∧
      ticked raw btn door now s = s.clearEvents.setBoot { phase := .booting, startMs := now }) ∨
    (s.boot.phase = .booting ∧ elapsedMs now s.boot.startMs < bootDelayMs ∧
      ticked raw btn door now s = s.clearEvents) ∨
    (s.boot.phase = .booting ∧ bootDelayMs ≤ elapsedMs now s.boot.startMs ∧
      ticked raw btn door now s =
        body raw btn door now ((bootEnd now s.clearEvents).setBoot { s.boot with phase := .run })) ∨
    (s.boot.phase = .run ∧ ticked raw btn door now s = body raw btn door now s.clearEvents) := by
  cases h : s.boot.phase with
  | waitFirst => exact .inl ⟨rfl, ticked_waitFirst h⟩
  | booting =>
    rcases Nat.lt_or_ge (elapsedMs now s.boot.startMs) bootDelayMs with he | he
    · exact .inr (.inl ⟨rfl, he, ticked_booting h he⟩)
    · exact .inr (.inr (.inl ⟨rfl, he, ticked_bootEnd h he⟩))
  | run => exact .inr (.inr (.inr ⟨rfl, ticked_run h⟩))

@[simp] theorem exec_nop (s : State) : exec .nop s = .next s.noOperation := rfl

@[simp] theorem exec_reserved (s : State) : exec .reserved s = .next s.noOperation := rfl

@[simp] theorem exec_reset (s : State) : exec .reset s = .next s.resetRegisters := rfl

@[simp] theorem exec_tick (raw : AdcCode) (btn door : Bool) (now : Millis) (s : State) :
    exec (.tick raw btn door now) s = .next (ticked raw btn door now s) := rfl

end

/-! ### One step -/

/-- A step that answers a next state held the state, or ran a decoded command of an instance. -/
theorem step_cases {s t : State} (h : step s = .next t) :
    (s.inbox = [] ∧ t = s) ∨
    ∃ b rest, s.inbox = b :: rest ∧ s.params.wellFormed = true ∧
      exec (decodeBundle b) (s.setInbox rest) = .next t := by
  unfold step State.takeBundle at h
  cases hb : s.inbox with
  | nil => rw [hb] at h; exact .inl ⟨rfl, by cases h; rfl⟩
  | cons b rest =>
    rw [hb] at h
    refine .inr ⟨b, rest, rfl, ?_⟩
    dsimp only at h
    by_cases hw : s.isInstance = true
    · rw [if_pos hw] at h; exact ⟨hw, h⟩
    · rw [if_neg hw] at h; cases h

/-- A run of the machine whose first step answers a next state goes on from it. -/
theorem run_succ {M : Host.Core} {k : Nat} {s t : M.State} (h : M.step s = .next t) :
    M.run (k + 1) s = M.run k t := by
  rw [Host.Core.run, h]

theorem core_run_succ {k : Nat} {s t : State} (h : step s = .next t) :
    Sys2Proof.core.run (k + 1) s = Sys2Proof.core.run k t := run_succ (M := Sys2Proof.core) h

end Sys2Proof.Machine
end

