-- ==== Sys2Proof/Laws/Control.lean ====
section
/-! SUPPORT. What the operations of CONTROL can do (R180 to R204), each said once, branch by branch: later
proofs cite these and unfold no table. -/

namespace Sys2Proof.Machine

/-- The Stage Controller after a RUN TICK, from the estimator that TICK's ESTIMATE left (R135, R180). -/
theorem ticked_run_ctl {raw : AdcCode} {btn door : Bool} {now : Millis} {s : State}
    (h : s.boot.phase = .run) :
    (ticked raw btn door now s).ctl =
      controlled s.params (ticked raw btn door now s).est btn now s.ctl := by
  rw [ticked_run h]; exact body_ctl ..

/-- The estimator after a RUN TICK is the one ESTIMATE leaves (R56). -/
theorem ticked_run_est {raw : AdcCode} {btn door : Bool} {now : Millis} {s : State}
    (h : s.boot.phase = .run) :
    (ticked raw btn door now s).est = (estimate raw s.clearEvents).est := by
  rw [ticked_run h]; exact body_est ..

/-- A controller without the one register that the release of the button writes. -/
def StageController.withPress (c : StageController) (ms : Millis) : StageController :=
  { c with pressStartMs := ms }

/-- A stage is negative exactly in Off and Hold (R104). -/
theorem isNegative_eq (x : Stage) : x.isNegative = decide (x = .off ∨ x = .hold) := by
  cases x <;> decide

/-! ### The button part (R181 to R184) -/

section
variable {e : Estimator} {now : Millis} {c : StageController}

/-- The start condition, on its operands (R183). -/
theorem startCondition_iff {press : Millis} : startCondition e press now = true ↔
    3000 ≤ (now - press).toNat ∧ e.tempValid = true ∧ e.sensorFault = false := by
  unfold startCondition
  rw [Bool.and_eq_true, Bool.and_eq_true, Bool.not_eq_true', and_assoc]
  exact and_congr_left' decide_eq_true_iff

theorem buttonPart_released : buttonPart e false now c = buttonReleased now c := if_pos rfl

theorem buttonPart_off (h : c.stage = .off) : buttonPart e true now c = { c with stage := .hold } :=
  (if_neg (by simp)).trans (if_pos h)

theorem buttonPart_start (h : c.stage = .hold) (hs : startCondition e c.pressStartMs now = true) :
    buttonPart e true now c = startRun now c := by
  simp [buttonPart, h, hs]

theorem buttonPart_holding (h : c.stage = .hold) (hs : startCondition e c.pressStartMs now = false) :
    buttonPart e true now c = c := by
  simp [buttonPart, h, hs]

/-- In a run the button writes the hold timer and nothing else (R184). -/
theorem buttonPart_in_run {btn : Bool} (h1 : c.stage ≠ .off) (h2 : c.stage ≠ .hold) :
    buttonPart e btn now c = c.withPress (if btn then c.pressStartMs else now) := by
  cases btn <;> simp [buttonPart, buttonReleased, StageController.withPress, h1, h2]

end

/-! ### The tables (R189 to R194) -/

section
variable {p : Params} {t : Binary64} {now : Millis} {c : StageController}

theorem preheatTable_row1 (h : t.lt (degC 40) = true) : preheatTable t c = setOutputs c 1 0 5 := if_pos h

theorem preheatTable_row2 (h1 : t.lt (degC 40) = false) (h : t.lt (degC 100) = true) :
    preheatTable t c = setOutputs c 2 1 5 :=
  (if_neg (Bool.eq_false_iff.mp h1)).trans (if_pos h)

theorem preheatTable_row3 (h1 : t.lt (degC 40) = false) (h2 : t.lt (degC 100) = false)
    (h : t.lt (degC 140) = true) : preheatTable t c = setOutputs c 3 3 6 :=
  (if_neg (Bool.eq_false_iff.mp h1)).trans ((if_neg (Bool.eq_false_iff.mp h2)).trans (if_pos h))

/-- Below no bound of the table the stage is left, or the temperature is a NaN and nothing is written. -/
theorem preheatTable_exit (h1 : t.lt (degC 40) = false) (h2 : t.lt (degC 100) = false)
    (h3 : t.lt (degC 140) = false) :
    preheatTable t c = if (degC 140).le t then { c with stage := .soak } else c :=
  (if_neg (Bool.eq_false_iff.mp h1)).trans
    ((if_neg (Bool.eq_false_iff.mp h2)).trans (if_neg (Bool.eq_false_iff.mp h3)))

theorem soakTable_row1 (h : t.lt (degC 150) = true) : soakTable t c = setOutputs c 1 1 4 := if_pos h

theorem soakTable_row2 (h1 : t.lt (degC 150) = false) (h : t.lt (degC 170) = true) :
    soakTable t c = setOutputs c 2 2 5 :=
  (if_neg (Bool.eq_false_iff.mp h1)).trans (if_pos h)

theorem soakTable_row3 (h1 : t.lt (degC 150) = false) (h2 : t.lt (degC 170) = false)
    (h : t.lt (degC 180) = true) : soakTable t c = setOutputs c 3 2 6 :=
  (if_neg (Bool.eq_false_iff.mp h1)).trans ((if_neg (Bool.eq_false_iff.mp h2)).trans (if_pos h))

theorem soakTable_exit (h1 : t.lt (degC 150) = false) (h2 : t.lt (degC 170) = false)
    (h3 : t.lt (degC 180) = false) :
    soakTable t c = if (degC 180).le t then { c with stage := .reflow } else c :=
  (if_neg (Bool.eq_false_iff.mp h1)).trans
    ((if_neg (Bool.eq_false_iff.mp h2)).trans (if_neg (Bool.eq_false_iff.mp h3)))

theorem reflowTable_row1 (h : t.lt (degC 190) = true) : reflowTable p t now c = setOutputs c 1 3 6 :=
  if_pos h

theorem reflowTable_row2 (h1 : t.lt (degC 190) = false) (h : t.lt p.reflowSub2LimitC = true) :
    reflowTable p t now c = setOutputs c 2 3 6 :=
  (if_neg (Bool.eq_false_iff.mp h1)).trans (if_pos h)

theorem reflowTable_row3 (h1 : t.lt (degC 190) = false) (h2 : t.lt p.reflowSub2LimitC = false)
    (h : t.lt (degC 212) = true) : reflowTable p t now c = setOutputs c 3 3 6 :=
  (if_neg (Bool.eq_false_iff.mp h1)).trans ((if_neg (Bool.eq_false_iff.mp h2)).trans (if_pos h))

theorem reflowTable_exit (h1 : t.lt (degC 190) = false) (h2 : t.lt p.reflowSub2LimitC = false)
    (h3 : t.lt (degC 212) = false) :
    reflowTable p t now c = if (degC 212).le t then enterCool now c else c :=
  (if_neg (Bool.eq_false_iff.mp h1)).trans
    ((if_neg (Bool.eq_false_iff.mp h2)).trans (if_neg (Bool.eq_false_iff.mp h3)))

/-- Everything the Preheat table can do: it writes a row, leaves for Soak at 140 °C or above, or nothing. -/
theorem preheatTable_cases (t : Binary64) (c : StageController) :
    (∃ sub top bot, preheatTable t c = setOutputs c sub top bot ∧ t.lt (degC 140) = true) ∨
    ((degC 140).le t = true ∧ preheatTable t c = { c with stage := .soak }) ∨
    ((degC 140).le t = false ∧ preheatTable t c = c) := by
  cases h1 : t.lt (degC 40) with
  | true => exact .inl ⟨_, _, _, preheatTable_row1 h1, Binary64.lt_of_lt_of_le h1 (by decide +kernel)⟩
  | false =>
    cases h2 : t.lt (degC 100) with
    | true =>
      exact .inl ⟨_, _, _, preheatTable_row2 h1 h2, Binary64.lt_of_lt_of_le h2 (by decide +kernel)⟩
    | false =>
      cases h3 : t.lt (degC 140) with
      | true => exact .inl ⟨_, _, _, preheatTable_row3 h1 h2 h3, rfl⟩
      | false =>
        rw [preheatTable_exit h1 h2 h3]
        cases h4 : (degC 140).le t with
        | true => exact .inr (.inl ⟨rfl, if_pos rfl⟩)
        | false => exact .inr (.inr ⟨rfl, if_neg (by simp)⟩)

/-- Everything the Soak table can do. -/
theorem soakTable_cases (t : Binary64) (c : StageController) :
    (∃ sub top bot, soakTable t c = setOutputs c sub top bot ∧ t.lt (degC 180) = true) ∨
    ((degC 180).le t = true ∧ soakTable t c = { c with stage := .reflow }) ∨
    ((degC 180).le t = false ∧ soakTable t c = c) := by
  cases h1 : t.lt (degC 150) with
  | true => exact .inl ⟨_, _, _, soakTable_row1 h1, Binary64.lt_of_lt_of_le h1 (by decide +kernel)⟩
  | false =>
    cases h2 : t.lt (degC 170) with
    | true =>
      exact .inl ⟨_, _, _, soakTable_row2 h1 h2, Binary64.lt_of_lt_of_le h2 (by decide +kernel)⟩
    | false =>
      cases h3 : t.lt (degC 180) with
      | true => exact .inl ⟨_, _, _, soakTable_row3 h1 h2 h3, rfl⟩
      | false =>
        rw [soakTable_exit h1 h2 h3]
        cases h4 : (degC 180).le t with
        | true => exact .inr (.inl ⟨rfl, if_pos rfl⟩)
        | false => exact .inr (.inr ⟨rfl, if_neg (by simp)⟩)

/-- Everything the Reflow table can do. -/
theorem reflowTable_cases (p : Params) (t : Binary64) (now : Millis) (c : StageController) :
    (∃ sub top bot, reflowTable p t now c = setOutputs c sub top bot) ∨
    ((degC 212).le t = true ∧ reflowTable p t now c = enterCool now c) ∨
    ((degC 212).le t = false ∧ reflowTable p t now c = c) := by
  cases h1 : t.lt (degC 190) with
  | true => exact .inl ⟨_, _, _, reflowTable_row1 h1⟩
  | false =>
    cases h2 : t.lt p.reflowSub2LimitC with
    | true => exact .inl ⟨_, _, _, reflowTable_row2 h1 h2⟩
    | false =>
      cases h3 : t.lt (degC 212) with
      | true => exact .inl ⟨_, _, _, reflowTable_row3 h1 h2 h3⟩
      | false =>
        rw [reflowTable_exit h1 h2 h3]
        cases h4 : (degC 212).le t with
        | true => exact .inr (.inl ⟨rfl, if_pos rfl⟩)
        | false => exact .inr (.inr ⟨rfl, if_neg (by simp)⟩)

end

/-! ### Cool (R195 to R199) -/

section
variable {t : Binary64} {es : Seconds} {c : StageController}

theorem trackPeak_new (h : c.record.maxTempC.lt t = true) : trackPeak t es c =
    { c with record := { c.record with maxTempC := t, elPeak := { seconds := es, valid := true } } } :=
  if_pos h

theorem trackPeak_old (h : c.record.maxTempC.lt t = false) : trackPeak t es c = c :=
  if_neg (Bool.eq_false_iff.mp h)

theorem coolTable_end (h : t.le (degC 50) = true) : coolTable t es c =
    endRun (checkpointDown t es (trackPeak t es (outputsOff c))) := if_pos h

theorem coolTable_on (h : t.le (degC 50) = false) : coolTable t es c =
    checkpointDown t es (trackPeak t es (outputsOff c)) := if_neg (Bool.eq_false_iff.mp h)

/-- The end of the run clears the record whatever the TICK recorded before it (R198, R199). -/
theorem coolTable_end_eq (h : t.le (degC 50) = true) : coolTable t es c =
    { stage := .off, substage := 0, topPower := 0, botPower := 0, record := .cleared
      pressStartMs := c.pressStartMs } := by
  rw [coolTable_end h]
  cases hp : c.record.maxTempC.lt t with
  | true => rw [trackPeak_new (c := outputsOff c) hp]; rfl
  | false => rw [trackPeak_old (c := outputsOff c) hp]; rfl

end

/-! ### Checkpoints, the override, and the hold timer -/

section
variable {x : Checkpoint} {condition : Bool} {es : Seconds}

theorem latch_of (hc : condition = true) (hv : x.valid = false) :
    x.latch condition es = { seconds := es, valid := true } := by
  simp [Checkpoint.latch, hc, hv]

theorem latch_of_not (hc : condition = false) : x.latch condition es = x := by
  simp [Checkpoint.latch, hc]

theorem latch_of_valid (hv : x.valid = true) : x.latch condition es = x := by
  simp [Checkpoint.latch, hv]

theorem safetyOverride_fault (c : StageController) :
    safetyOverride true c = { c with topPower := 0, botPower := 0 } := rfl

theorem safetyOverride_ok (c : StageController) : safetyOverride false c = c := rfl

variable (b : Bool) (c : StageController)

@[simp] theorem safetyOverride_stage : (safetyOverride b c).stage = c.stage := by cases b <;> rfl

@[simp] theorem safetyOverride_substage : (safetyOverride b c).substage = c.substage := by cases b <;> rfl

@[simp] theorem safetyOverride_record : (safetyOverride b c).record = c.record := by cases b <;> rfl

@[simp] theorem safetyOverride_pressStartMs : (safetyOverride b c).pressStartMs = c.pressStartMs := by
  cases b <;> rfl

@[simp] theorem safetyOverride_topPower :
    (safetyOverride b c).topPower = if b then 0 else c.topPower := by cases b <;> rfl

@[simp] theorem safetyOverride_botPower :
    (safetyOverride b c).botPower = if b then 0 else c.botPower := by cases b <;> rfl

end

/-- In a run the profile part neither reads nor writes the hold timer. -/
theorem profilePart_withPress (p : Params) {s0 : Stage} (t : Binary64) (es : Seconds) (now ms : Millis)
    (c : StageController) :
    profilePart p s0 t es now (c.withPress ms) = (profilePart p s0 t es now c).withPress ms := by
  cases s0 with
  | off => rfl
  | hold => rfl
  | preheat =>
    change preheatTable t ((checkpointsUp t es c).withPress ms) = (preheatTable t _).withPress ms
    generalize checkpointsUp t es c = d
    cases h1 : t.lt (degC 40) with
    | true => rw [preheatTable_row1 h1, preheatTable_row1 h1]; rfl
    | false =>
      cases h2 : t.lt (degC 100) with
      | true => rw [preheatTable_row2 h1 h2, preheatTable_row2 h1 h2]; rfl
      | false =>
        cases h3 : t.lt (degC 140) with
        | true => rw [preheatTable_row3 h1 h2 h3, preheatTable_row3 h1 h2 h3]; rfl
        | false =>
          rw [preheatTable_exit h1 h2 h3, preheatTable_exit h1 h2 h3]
          cases (degC 140).le t <;> rfl
  | soak =>
    change soakTable t ((checkpointsUp t es c).withPress ms) = (soakTable t _).withPress ms
    generalize checkpointsUp t es c = d
    cases h1 : t.lt (degC 150) with
    | true => rw [soakTable_row1 h1, soakTable_row1 h1]; rfl
    | false =>
      cases h2 : t.lt (degC 170) with
      | true => rw [soakTable_row2 h1 h2, soakTable_row2 h1 h2]; rfl
      | false =>
        cases h3 : t.lt (degC 180) with
        | true => rw [soakTable_row3 h1 h2 h3, soakTable_row3 h1 h2 h3]; rfl
        | false =>
          rw [soakTable_exit h1 h2 h3, soakTable_exit h1 h2 h3]
          cases (degC 180).le t <;> rfl
  | reflow =>
    change reflowTable p t now (c.withPress ms) = (reflowTable p t now c).withPress ms
    cases h1 : t.lt (degC 190) with
    | true => rw [reflowTable_row1 h1, reflowTable_row1 h1]; rfl
    | false =>
      cases h2 : t.lt p.reflowSub2LimitC with
      | true => rw [reflowTable_row2 h1 h2, reflowTable_row2 h1 h2]; rfl
      | false =>
        cases h3 : t.lt (degC 212) with
        | true => rw [reflowTable_row3 h1 h2 h3, reflowTable_row3 h1 h2 h3]; rfl
        | false =>
          rw [reflowTable_exit h1 h2 h3, reflowTable_exit h1 h2 h3]
          cases (degC 212).le t <;> rfl
  | cool =>
    change coolTable t es (c.withPress ms) = (coolTable t es c).withPress ms
    cases h1 : t.le (degC 50) with
    | true => rw [coolTable_end_eq h1, coolTable_end_eq h1]; rfl
    | false =>
      rw [coolTable_on h1, coolTable_on h1]
      cases h2 : c.record.maxTempC.lt t with
      | true =>
        rw [trackPeak_new (c := outputsOff c) h2, trackPeak_new (c := outputsOff (c.withPress ms)) h2]; rfl
      | false =>
        rw [trackPeak_old (c := outputsOff c) h2, trackPeak_old (c := outputsOff (c.withPress ms)) h2]; rfl

/-- The profile part keeps the hold timer. -/
@[simp] theorem profilePart_pressStartMs (p : Params) (s0 : Stage) (t : Binary64) (es : Seconds)
    (now : Millis) (c : StageController) :
    (profilePart p s0 t es now c).pressStartMs = c.pressStartMs := by
  exact congrArg (·.pressStartMs) (profilePart_withPress p (s0 := s0) t es now c.pressStartMs c :
    profilePart p s0 t es now (c.withPress c.pressStartMs) = _)

end Sys2Proof.Machine
end

