-- ==== Sys2Proof/Laws/Decode.lean ====
section
/-! SUPPORT. The encoder and the decoder's fields as numbers, so that facts about bundles are arithmetic. -/

namespace Sys2Proof

/-- A level as a number. -/
theorem bitOfLevel_toNat (b : Bool) : (bitOfLevel b).toNat = b.toNat := by cases b <;> rfl

/-- The bundle of a TICK as a number: each operand at its place (R101, R114). -/
theorem encode_tick_toNat (raw : AdcCode) (btn door : Bool) (nowMs : Millis) :
    (encode (.tick raw btn door nowMs)).toNat =
      nowMs.toNat * 2 ^ 20 + raw.toNat * 2 ^ 4 + door.toNat * 2 ^ 3 + btn.toNat * 2 ^ 2 + 1 := by
  change BitVec.toNat (w := 32 + 16 + 1 + 1 + 2)
    (nowMs ++ raw ++ bitOfLevel door ++ bitOfLevel btn ++ 1#2) = _
  have hraw := raw.isLt
  have hd : (bitOfLevel door).toNat < 2 := by cases door <;> decide
  have hb : (bitOfLevel btn).toNat < 2 := by cases btn <;> decide
  rw [BitVec.toNat_append, BitVec.toNat_append, BitVec.toNat_append, BitVec.toNat_append,
    ← Nat.shiftLeft_add_eq_or_of_lt (by decide), ← Nat.shiftLeft_add_eq_or_of_lt (by omega),
    ← Nat.shiftLeft_add_eq_or_of_lt (by omega), ← Nat.shiftLeft_add_eq_or_of_lt (by omega),
    ← bitOfLevel_toNat, ← bitOfLevel_toNat]
  simp only [Nat.shiftLeft_eq, BitVec.toNat_ofNat]
  omega

theorem cmdField_toNat (b : Bundle) : (cmdField b).toNat = b.toNat % 4 := by
  simp [cmdField, BitVec.extractLsb'_toNat]

theorem rawField_toNat (b : Bundle) : (rawField b).toNat = b.toNat / 2 ^ 4 % 2 ^ 16 := by
  simp [rawField, BitVec.extractLsb'_toNat, Nat.shiftRight_eq_div_pow]

theorem nowMsField_toNat (b : Bundle) : (nowMsField b).toNat = b.toNat / 2 ^ 20 % 2 ^ 32 := by
  simp [nowMsField, BitVec.extractLsb'_toNat, Nat.shiftRight_eq_div_pow]

theorem btnField_eq (b : Bundle) : btnField b = decide (b.toNat / 2 ^ 2 % 2 = 1) := by
  rw [btnField, ← BitVec.testBit_toNat, Nat.testBit_eq_decide_div_mod_eq]

theorem doorField_eq (b : Bundle) : doorField b = decide (b.toNat / 2 ^ 3 % 2 = 1) := by
  rw [doorField, ← BitVec.testBit_toNat, Nat.testBit_eq_decide_div_mod_eq]

end Sys2Proof
end

