-- ==== Sys2Proof/Laws/Outputs.lean ====
section
/-! SUPPORT. What the operations of ALARM, PWM and BEEP can do (R240 to R243, R260 to R265), each said once,
branch by branch. -/

namespace Sys2Proof.Machine

section
variable {raw : AdcCode} {btn door : Bool} {now : Millis} {s : State}

/-- The PWM Duty Driver after a RUN TICK, from the powers that TICK's CONTROL left (R135, R240). -/
theorem ticked_run_pwm (h : s.boot.phase = .run) : (ticked raw btn door now s).pwm =
    driven s.params (ticked raw btn door now s).ctl.topPower (ticked raw btn door now s).ctl.botPower now
      s.pwm := by
  rw [ticked_run h]; exact body_pwm ..

/-- The alarm and the beeper after a RUN TICK, from the stage and record that TICK's CONTROL left (R263). -/
theorem ticked_run_alarm (h : s.boot.phase = .run) : (ticked raw btn door now s).alarm =
    beeped now
      { s.alarm with alarmActive := gatedAlarm door now (ticked raw btn door now s).ctl } := by
  rw [ticked_run h]; exact body_alarm ..

end

/-! ### PWM -/

section
variable {now start : Millis}

theorem pwmCycleStart_restart (h : 1000 ≤ (now - start).toNat) : pwmCycleStart now start = now := if_pos h

theorem pwmCycleStart_keep (h : (now - start).toNat < 1000) : pwmCycleStart now start = start :=
  if_neg (Nat.not_le.mpr h)

/-- After the restart test less than a full period has passed. -/
theorem elapsedMs_pwmCycleStart (now start : Millis) :
    elapsedMs now (pwmCycleStart now start) < 1000 := by
  rcases Nat.lt_or_ge (now - start).toNat 1000 with h | h
  · rw [pwmCycleStart_keep h]; exact h
  · rw [pwmCycleStart_restart h]; simp [elapsedMs]

theorem relayOn_six {n : Nat} {power : Power} : relayOn n power 6 = decide (n ≤ power.val) := if_pos rfl

theorem relayOn_of_ne {n k : Nat} {power : Power} (h : k ≠ 6) :
    relayOn n power k = decide (k ≤ power.val) := if_neg h

/-- A slice has an index of at least 1. -/
theorem slice_pos (e : Nat) : 1 ≤ slice e := Nat.succ_pos _

/-! ### ALARM and BEEP -/

/-- The Cooldown suppression, on its operands (R262). -/
theorem alarmSuppressed_iff {c : StageController} : alarmSuppressed now c = true ↔
    c.stage = .cool ∧ c.record.doorOpenValid = true ∧ 8000 ≤ (now - c.record.doorOpenMs).toNat := by
  unfold alarmSuppressed
  rw [Bool.and_eq_true, Bool.and_eq_true, and_assoc]
  exact and_congr decide_eq_true_iff (and_congr_right' decide_eq_true_iff)

theorem beepCycleStart_restart (h : 2000 ≤ (now - start).toNat) : beepCycleStart now start = now :=
  if_pos h

theorem beepCycleStart_keep (h : (now - start).toNat < 2000) : beepCycleStart now start = start :=
  if_neg (Nat.not_le.mpr h)

theorem beeped_alarmActive (a : AlarmMonitor) : (beeped now a).alarmActive = a.alarmActive := rfl

theorem beeped_beepStartMs (a : AlarmMonitor) :
    (beeped now a).beepStartMs = beepCycleStart now a.beepStartMs := rfl

/-- The buzzer sounds only while the alarm is active (R265). -/
theorem beeped_buzzerOn_iff (a : AlarmMonitor) : (beeped now a).buzzerOn = true ↔
    a.alarmActive = true ∧ (now - beepCycleStart now a.beepStartMs).toNat < 1000 := by
  unfold beeped
  rw [Bool.and_eq_true]
  exact and_congr_right' decide_eq_true_iff

end

end Sys2Proof.Machine
end

