-- ==== Sys2Proof/Laws/Params.lean ====
section
/-! SUPPORT. What the checked parameter constraints (R7) give, one lemma for each use. -/

namespace Sys2Proof

open Sys2Proof.Machine

theorem degC_190 : degC 190 = ⟨0x4067C00000000000#64⟩ := by decide +kernel

theorem degC_212 : degC 212 = ⟨0x406A800000000000#64⟩ := by decide +kernel

namespace Params

variable {p : Params}

theorem nAvg_range (h : p.wellFormed = true) : 1 ≤ p.nAvg ∧ p.nAvg ≤ 65535 := by
  unfold wellFormed at h
  simp only [Bool.and_eq_true, decide_eq_true_eq] at h
  omega

theorem sensorFaultLimit_range (h : p.wellFormed = true) :
    1 ≤ p.sensorFaultLimit ∧ p.sensorFaultLimit ≤ 65535 := by
  unfold wellFormed at h
  simp only [Bool.and_eq_true, decide_eq_true_eq] at h
  omega

theorem adcMax_range (h : p.wellFormed = true) : 2 ≤ p.adcMax ∧ p.adcMax ≤ 65536 := by
  unfold wellFormed at h
  simp only [Bool.and_eq_true, decide_eq_true_eq] at h
  omega

theorem slice6MinPower_range (h : p.wellFormed = true) : p.slice6MinPower = 5 ∨ p.slice6MinPower = 6 := by
  unfold wellFormed at h
  simp only [Bool.and_eq_true, Bool.or_eq_true, decide_eq_true_eq] at h
  omega

theorem degC_190_le_sub2 (h : p.wellFormed = true) : (degC 190).le p.reflowSub2LimitC = true := by
  unfold wellFormed at h
  simp only [Bool.and_eq_true] at h
  rw [degC_190]
  exact h.1.2

theorem sub2_le_degC_212 (h : p.wellFormed = true) : p.reflowSub2LimitC.le (degC 212) = true := by
  unfold wellFormed at h
  simp only [Bool.and_eq_true] at h
  rw [degC_212]
  exact h.2

end Params

end Sys2Proof
end

