-- ==== Sys2Proof/Laws/PerInstr.lean ====
section
/-! SUPPORT. Statements about every command as syntax, one lemma per constructor. -/

namespace Sys2Proof.Laws.CmdCode

/-- The `cmd` value of a command (R102). -/
def code : Instr → BitVec 2
  | .nop => 0
  | .tick _ _ _ _ => 1
  | .reset => 2
  | .reserved => 3

/-- The encoder writes the command's `cmd` value in bits 1:0 (R102, R112). -/
def Statement (i : Instr) : Prop := cmdField (encode i) = code i

theorem nop : Statement .nop := by unfold Statement; decide

theorem tick (raw : AdcCode) (btn door : Bool) (nowMs : Millis) :
    Statement (.tick raw btn door nowMs) := by
  unfold Statement
  apply BitVec.eq_of_toNat_eq
  rw [cmdField_toNat, encode_tick_toNat]
  change _ = 1
  omega

theorem reset : Statement .reset := by unfold Statement; decide

theorem reserved : Statement .reserved := by unfold Statement; decide

end Sys2Proof.Laws.CmdCode
end

