-- ==== Sys2Proof/Machine/Assembler.lean ====
section
/-! DEFINITION. The assembler's text (R114, R115 of spec/30_encoding.md): one command per line, mnemonics in
upper case, operands decimal or hexadecimal with the prefix 0x and separated by commas, a comment from a
semicolon to the end of the line. A line is a list of characters. Blanks around a mnemonic or an operand
are dropped (log entry 9, DESIGN CHOICE: the rule gives no grammar of blanks). -/

namespace Sys2Proof.Machine

def isBlank (c : Char) : Bool := c == ' ' || c == '\t' || c == '\r'

/-- A text without the blanks at its two ends. -/
def trimBlanks (cs : List Char) : List Char :=
  ((cs.dropWhile isBlank).reverse.dropWhile isBlank).reverse

/-- The value of a digit, hexadecimal digits in either case. -/
def digitValue (c : Char) : Option Nat :=
  let n := c.toNat
  if 48 ≤ n ∧ n ≤ 57 then some (n - 48)
  else if 97 ≤ n ∧ n ≤ 102 then some (n - 87)
  else if 65 ≤ n ∧ n ≤ 70 then some (n - 55)
  else none

/-- The number that digits of a base spell after the number `acc`. -/
def numberFrom (base : Nat) : Nat → List Char → Option Nat
  | acc, [] => some acc
  | acc, c :: cs =>
    match digitValue c with
    | some d => if d < base then numberFrom base (acc * base + d) cs else none
    | none => none

/-- An operand: "decimal, or hexadecimal with prefix 0x" (R114). -/
def parseNumber : List Char → Option Nat
  | [] => none
  | ['0', 'x'] => none
  | '0' :: 'x' :: ds => numberFrom 16 0 ds
  | ds => numberFrom 10 0 ds

/-- The pieces of a text between commas. -/
def splitCommas : List Char → List (List Char)
  | [] => [[]]
  | c :: cs =>
    match splitCommas cs with
    | [] => [[c]]
    | first :: others => if c = ',' then [] :: first :: others else (c :: first) :: others

/-- The operands of a line; none at all where nothing follows the mnemonic. -/
def parseOperands (cs : List Char) : Option (List Nat) :=
  if trimBlanks cs = [] then some []
  else (splitCommas cs).mapM fun piece => parseNumber (trimBlanks piece)

/-- The line that a mnemonic and its operands stand for (R114, R115). The operand of `.bundle` is a number like
every other, so that without the prefix 0x it is decimal: the model's choice (log entry 9, DESIGN CHOICE), since
R114 writes `<hex52>` there and allows decimal operands in general. -/
def lineOf (mnemonic : List Char) (operands : List Nat) : Except AsmError AsmLine :=
  match mnemonic, operands with
  | ['N', 'O', 'P'], [] => .ok .nop
  | ['R', 'E', 'S', 'E', 'T'], [] => .ok .reset
  | ['T', 'I', 'C', 'K'], [raw, btn, door, nowMs] => .ok (.tick raw btn door nowMs)
  | ['.', 'b', 'u', 'n', 'd', 'l', 'e'], [value] => .ok (.bundle value)
  | ['T', 'I', 'C', 'K', 'N'], [n, raw, btn, door, t0, dt] => .ok (.tickn n raw btn door t0 dt)
  | _, _ => .error .malformed

/-- One line of text; none where it holds no command, only blanks or a comment. -/
def parseLine (text : List Char) : Except AsmError (Option AsmLine) :=
  let code := trimBlanks (text.takeWhile fun c => c != ';')
  if code = [] then .ok none
  else
    match parseOperands (code.dropWhile fun c => !isBlank c) with
    | some operands => (lineOf (code.takeWhile fun c => !isBlank c) operands).map some
    | none => .error .malformed

/-- The bundles of a program's text, one line after the other. -/
def assembleText : List (List Char) → Except AsmError (List Bundle)
  | [] => .ok []
  | text :: rest => do
    let first ← match ← parseLine text with
      | some line => assemble line
      | none => .ok []
    let others ← assembleText rest
    return first ++ others

end Sys2Proof.Machine
end

