-- ==== Sys2Proof/Tests/Slice0.lean ====
section
/-! SUPPORT. The model's own tests: a term for each check that the check refuses, decodings of words written
out from spec/30_encoding.md, vectors of spec/95_test_vectors.md, and for each statement a state and operands
that meet its hypotheses. Every expected value stands in the spec. -/

namespace Sys2Proof.Tests

open Sys2Proof Sys2Proof.Machine

/-! ### The checks (R7, R114, R115) -/

theorem test_wf_accepts_the_reset_parameters : paramsEx1.wellFormed = true := by decide +kernel

theorem test_wf_refuses_nAvg : { paramsEx1 with nAvg := 0 }.wellFormed = false ∧
    { paramsEx1 with nAvg := 65536 }.wellFormed = false := by decide +kernel

theorem test_wf_refuses_sensorFaultLimit : { paramsEx1 with sensorFaultLimit := 0 }.wellFormed = false ∧
    { paramsEx1 with sensorFaultLimit := 65536 }.wellFormed = false := by decide +kernel

theorem test_wf_refuses_adcMax : { paramsEx1 with adcMax := 1 }.wellFormed = false ∧
    { paramsEx1 with adcMax := 65537 }.wellFormed = false := by decide +kernel

/-- 0.0, +inf, and a NaN. -/
theorem test_wf_refuses_vcc : { paramsEx1 with vcc := ⟨0#64⟩ }.wellFormed = false ∧
    { paramsEx1 with vcc := ⟨0x7FF0000000000000#64⟩ }.wellFormed = false ∧
    { paramsEx1 with vcc := ⟨0x7FF8000000000000#64⟩ }.wellFormed = false := by decide +kernel

/-- −1.0 and +inf. -/
theorem test_wf_refuses_rSeries : { paramsEx1 with rSeries := ⟨0xBFF0000000000000#64⟩ }.wellFormed = false ∧
    { paramsEx1 with rSeries := ⟨0x7FF0000000000000#64⟩ }.wellFormed = false := by decide +kernel

theorem test_wf_refuses_slice6MinPower : { paramsEx1 with slice6MinPower := 4 }.wellFormed = false ∧
    { paramsEx1 with slice6MinPower := 7 }.wellFormed = false := by decide +kernel

/-- The numbers next below 190.0 and next above 212.0, and a NaN. -/
theorem test_wf_refuses_reflowSub2LimitC :
    { paramsEx1 with reflowSub2LimitC := ⟨0x4067BFFFFFFFFFFF#64⟩ }.wellFormed = false ∧
    { paramsEx1 with reflowSub2LimitC := ⟨0x406A800000000001#64⟩ }.wellFormed = false ∧
    { paramsEx1 with reflowSub2LimitC := ⟨0x7FF8000000000000#64⟩ }.wellFormed = false := by
  decide +kernel

/-- EN12 among them: each operand of TICK one above its range. -/
theorem test_asm_refuses_tick_operands :
    (AsmLine.tick 65536 0 0 0).wellFormed = false ∧ (AsmLine.tick 0 2 0 0).wellFormed = false ∧
    (AsmLine.tick 0 0 2 0).wellFormed = false ∧ (AsmLine.tick 0 0 0 4294967296).wellFormed = false := by
  decide

theorem test_asm_refuses_bundle : (AsmLine.bundle (2 ^ 52)).wellFormed = false := by decide

theorem test_asm_refuses_tickn : (AsmLine.tickn 0 46 0 0 0 5).wellFormed = false ∧
    (AsmLine.tickn 1 65536 0 0 0 5).wellFormed = false ∧
    (AsmLine.tickn 1 46 0 0 4294967296 5).wellFormed = false := by decide

/-! ### Decoding, from bits written out (R101, R102, R114) -/

/-- EN1, and a NOP whose ignored bits are all set. -/
theorem test_decode_nop : decodeBundle 0b0000000000000000000000000000000000000000000000000000#52 = .nop ∧
    decodeBundle 0b1111111111111111111111111111111111111111111111111100#52 = .nop := by decide

/-- EN8, field by field: `now_ms` 123456, `raw` 950, `door` 1, `btn` 0, `cmd` 01. -/
theorem test_decode_tick :
    decodeBundle (0b00000000000000011110001001000000#32 ++ 0b0000001110110110#16 ++ 0b1#1 ++ 0b0#1 ++ 0b01#2)
      = .tick 950 false true 123456 := by decide

/-- EN11: the set `btn` bit of a RESET is ignored. -/
theorem test_decode_reset :
    decodeBundle 0b0000000000000000000000000000000000000000000000000010#52 = .reset ∧
    decodeBundle 0b0000000000000000000000000000000000000000000000000110#52 = .reset := by decide

/-- EN10 and EN9. -/
theorem test_decode_reserved :
    decodeBundle 0b0000000000000000000000000000000000000000000000000011#52 = .reserved ∧
    decodeBundle 0b1111111111111111111111111111111111111111111111111111#52 = .reserved := by decide

/-- EN1, EN2, EN6 and EN7, with R103's code. -/
theorem test_encode : encode .nop = 0 ∧ encode .reset = 2 ∧ encode .reserved = 3 ∧
    encode (.tick 950 false true 123456) = 0x0001E24003B69 ∧
    encode (.tick 65535 true true 4294967295) = 0xFFFFFFFFFFFFD := by decide

/-- Bit 52 does not exist (R112). -/
theorem test_decode_rejects : decode 0x10000000000000 = .error .notABundle ∧
    decodeTableWord 56 0x10000000000000 = none ∧ decodeTableWord 56 0xFFFFFFFFFFFFF = some .reserved ∧
    decodeTableWord 56 0x2E1 = some (.tick 46 false false 0) := by decide

/-- EN13, its third time as R115 gives it: (4294967290 + 2·5) mod 2^32 = 4 (log entry 9). -/
theorem test_tickn : assemble (.tickn 3 46 0 0 4294967290 5) =
    .ok [encode (.tick 46 false false 4294967290), encode (.tick 46 false false 4294967295),
      encode (.tick 46 false false 4)] := by decide

/-- EN4 as text, with a comment, and EN12. -/
theorem test_assembler_text :
    assembleText ["TICK 46, 0, 0, 0xBB8 ; first".toList, "; only a comment".toList, "RESET".toList] =
      .ok [0x00000BB8002E1, 2] ∧
    assembleText ["TICK 65536, 0, 0, 0".toList] = .error .operandOutOfRange := by decide +kernel

/-! ### States for one step -/

/-- The state after reset, the boot ended. -/
def running : State := { State.reset with boot := { phase := .run, startMs := 0 } }

/-- A running state in a stage, at a published temperature, with a run record. -/
def inStage (stage : Stage) (tempK : BitVec 64) (record : RunRecord) : State :=
  { running with
    est := { running.est with tempK := ⟨tempK⟩, tempValid := true }
    ctl := { running.ctl with stage := stage, record := record, pressStartMs := 3000 } }

/-- The record of a run begun at 6000. -/
def begun : RunRecord := { RunRecord.cleared with runStartMs := 6000 }

/-- The record of that run in Cool, entered at 50000. -/
def cooling : RunRecord :=
  { begun with doorOpenMs := 50000, doorOpenValid := true, doorAlarmEn := true }

/-- A running state of an instance with one sample a window, or of another set of parameters. -/
def withParams (p : Params) : State := { running with params := p }

/-- Windows of one sample, the sensor fault at the second invalid one. -/
def single : Params := { paramsEx1 with nAvg := 1, sensorFaultLimit := 2 }

/-- A linearizer that gives 1.0e6, −0.0, the number next below 1.0e6 and a NaN at the codes 5 to 8. -/
def bounds : Params :=
  { single with
    linTable := [(5, ⟨0x412E848000000000#64⟩), (6, ⟨0x8000000000000000#64⟩), (7, ⟨0x412E847FFFFFFFFF#64⟩),
      (8, ⟨0x7FF8000000000000#64⟩)] }

/-! ### One step of each command -/

/-- R132: from a state with an event, nothing but the event list changes. -/
theorem test_nop : step ({ running with events := [.warn .rawZero] }.withFetchWord 56 0) = .next running := by
  rfl

/-- R103. -/
theorem test_reserved :
    step ({ running with events := [.warn .rawZero] }.withFetchWord 56 0xFFFFFFFFFFFFF) = .next running := by
  rfl

/-- R133 from a state in Cool, and R310. -/
theorem test_reset :
    step ((inStage .cool 0x407ed3dd2a349323#64 cooling).withFetchWord 56 6) = .next State.reset := by rfl

/-- R312: the first TICK after reset only starts the boot delay. -/
theorem test_tick_boots : step (State.reset.withFetchWord 56 0x00000BB8002E1) =
    .next { State.reset with boot := { phase := .booting, startMs := 3000 } } := by rfl

/-- CT9 (source S1), as a step with an open door at 7000: the sub-stage, the powers, the restarted PWM cycle,
the alarm and the restarted beep period. -/
theorem test_tick_runs : ∃ t,
    step ((inStage .preheat 0x4073926666666666#64 begun).withFetchWord 56 0x1B58002E9) = .next t ∧
      t.ctl.stage = .preheat ∧ t.ctl.substage = 2 ∧ t.ctl.topPower = 1 ∧ t.ctl.botPower = 5 ∧
      t.pwm = { startMs := 7000, topRelayOn := true, botRelayOn := true } ∧
      t.alarm = { alarmActive := true, beepStartMs := 7000, buzzerOn := true } := by
  refine ⟨_, rfl, ?_⟩
  decide +kernel

/-! ### The phases, by vectors of spec/95_test_vectors.md -/

/-- The values of the reference order at raw 46 (section 1.1): `rth`, and, from the logarithm given there,
`den` and the listed `LIN`. -/
theorem test_lin : linRth paramsEx1 46 = ⟨0x40F86561642C8592#64⟩ ∧
    linDen paramsEx1 ⟨0x4027063D405D04DB#64⟩ = ⟨0x3F6B8D18888E7378#64⟩ ∧
    one.div ⟨0x3F6B8D18888E7378#64⟩ = lin paramsEx1 46 := by decide +kernel

/-- ES2, row 5: the mean of three samples. -/
theorem test_mean : publishMean { single with nAvg := 3 }
      (accumulate (lin single 200) (accumulate (lin single 100) (accumulate (lin single 46) .reset))) =
    { Estimator.reset with tempK := ⟨0x4073D948157CF0E4#64⟩, tempValid := true } := by decide +kernel

/-- ES3: the guard at its bounds. -/
theorem test_guard : sampleGuard bounds 0 = .error .rawZero ∧ sampleGuard bounds 1024 = .error .rawHigh ∧
    sampleGuard bounds 5 = .error .badResult ∧ sampleGuard bounds 6 = .error .badResult ∧
    sampleGuard bounds 8 = .error .badResult ∧
    sampleGuard bounds 7 = .ok ⟨0x412E847FFFFFFFFF#64⟩ := by
  decide

/-- CT11 and CT13: on the TICK that leaves Preheat or Soak the sub-stage and the powers are held, and the
checkpoint of 180 °C is latched at 3 s. -/
theorem test_exits :
    controlled paramsEx1 { running.est with tempK := ⟨0x4079D26666666666#64⟩, tempValid := true } false 7000
        { stage := .preheat, substage := 3, topPower := 3, botPower := 6, record := begun
          pressStartMs := 3000 } =
      { stage := .soak, substage := 3, topPower := 3, botPower := 6
        record := { begun with el50 := ⟨1, true⟩ }, pressStartMs := 7000 } ∧
    controlled paramsEx1 { running.est with tempK := ⟨0x407C526666666666#64⟩, tempValid := true } false 9000
        { stage := .soak, substage := 3, topPower := 2, botPower := 6
          record := { begun with el50 := ⟨1, true⟩, el150 := ⟨2, true⟩ }, pressStartMs := 3000 } =
      { stage := .reflow, substage := 3, topPower := 2, botPower := 6
        record := { begun with el50 := ⟨1, true⟩, el150 := ⟨2, true⟩, el180up := ⟨3, true⟩ }
        pressStartMs := 9000 } := by decide +kernel

/-- CT14: 190 °C in Reflow is sub-stage 3 with a limit of 190, sub-stage 2 with one of 200; and CT20: the
override zeroes the powers and keeps the sub-stage. -/
theorem test_reflow :
    (reflowTable paramsEx1 (celsius ⟨0x407CF26666666666#64⟩) 9000 .reset).substage = 3 ∧
    (reflowTable { paramsEx1 with reflowSub2LimitC := degC 200 } (celsius ⟨0x407CF26666666666#64⟩) 9000
      .reset).substage = 2 ∧
    controlled paramsEx1
        { running.est with tempK := ⟨0x407D426666666666#64⟩, tempValid := true, sensorFault := true } false 9000
        { stage := .reflow, substage := 3, topPower := 3, botPower := 6, record := begun
          pressStartMs := 3000 } =
      { stage := .reflow, substage := 3, topPower := 0, botPower := 0, record := begun
        pressStartMs := 9000 } := by decide +kernel

/-- CT17, CT19a and CT19b: the peak, the falling checkpoint, and its latch. -/
theorem test_cool :
    (coolTable (celsius ⟨0x407ED3DD2A349323#64⟩) 4 { StageController.reset with record := begun }).record =
      { begun with maxTempC := celsius ⟨0x407ED3DD2A349323#64⟩, elPeak := ⟨4, true⟩ } ∧
    (coolTable (celsius ⟨0x407C526666666666#64⟩) 9
      { StageController.reset with record := { begun with maxTempC := degC 220 } }).record.el180dw =
        ⟨9, true⟩ ∧
    (coolTable (celsius ⟨0x4074326666666667#64⟩) 14
      { StageController.reset with record := { begun with el180dw := ⟨9, true⟩ } }).record.el180dw =
        ⟨9, true⟩ := by decide +kernel

/-- CT25: whole seconds across the wrap of the clock. -/
theorem test_elapsed_seconds : elapsedSeconds 2500 4294966296 = 3 := by decide

/-- PW4a, PW4c and PW4e. -/
theorem test_pwm : driven paramsEx1 3 2 7400 ⟨7000, false, false⟩ = ⟨7000, true, false⟩ ∧
    driven paramsEx1 1 0 8000 ⟨7000, false, false⟩ = ⟨8000, true, false⟩ ∧
    driven paramsEx1 3 4 100 ⟨4294967040, false, false⟩ = ⟨4294967040, true, true⟩ := by decide

/-- AL4, AL7 and AL8; BP3, BP5 and BP8. -/
theorem test_alarm_and_beeper :
    gatedAlarm false 53000 { StageController.reset with stage := .cool, record := cooling } = true ∧
    gatedAlarm true 53000 { StageController.reset with stage := .cool, record := cooling } = false ∧
    gatedAlarm false 7704 { StageController.reset with
      stage := .cool, record := { cooling with doorOpenMs := 4294967000 } } = false ∧
    beeped 11000 ⟨true, 10000, true⟩ = ⟨true, 10000, false⟩ ∧
    beeped 12000 ⟨true, 10000, false⟩ = ⟨true, 12000, true⟩ ∧
    beeped 500 ⟨true, 4294966296, true⟩ = ⟨true, 4294966296, false⟩ := by decide

/-! ### Witnesses: what meets the hypotheses of each statement

A witness of `Obligations.<Name>` is named `witness_<Name>`, with the clause it meets behind the name where the
statement has several. -/

theorem witness_TickBundleIsDeterminedByItsFields :
    (0xFFFFFFFFFFFFD#52).toNat % 4 = 1 ∧ (0x0000000000001#52).toNat % 4 = 1 := by decide

/-- One bundle of each command, its other bits all set. -/
theorem witness_DecoderReadsTheFields :
    (0xFFFFFFFFFFFFC#52).toNat % 4 = 0 ∧ (0xFFFFFFFFFFFFD#52).toNat % 4 = 1 ∧
    (0xFFFFFFFFFFFFE#52).toNat % 4 = 2 ∧ (0xFFFFFFFFFFFFF#52).toNat % 4 = 3 := by decide

/-- The largest operand of each clause, and the smallest out of range. -/
theorem witness_AssemblerEncodesLines :
    2 ^ 52 - 1 < 2 ^ 52 ∧ 2 ^ 52 ≤ 2 ^ 52 ∧
    (65535 < 2 ^ 16 ∧ 1 < 2 ∧ 1 < 2 ∧ 4294967295 < 2 ^ 32) ∧
    (2 ^ 16 ≤ 65536 ∨ 2 ≤ 1 ∨ 2 ≤ 1 ∨ 2 ^ 32 ≤ 4294967295) ∧
    (2 ^ 16 ≤ 65535 ∨ 2 ≤ 2 ∨ 2 ≤ 1 ∨ 2 ^ 32 ≤ 4294967295) ∧
    (2 ^ 16 ≤ 65535 ∨ 2 ≤ 1 ∨ 2 ≤ 2 ∨ 2 ^ 32 ≤ 4294967295) ∧
    (2 ^ 16 ≤ 65535 ∨ 2 ≤ 1 ∨ 2 ≤ 1 ∨ 2 ^ 32 ≤ 4294967296) := by decide

theorem witness_TicknExpandsToTicks :
    (1 ≤ 3 ∧ 46 < 2 ^ 16 ∧ 0 < 2 ∧ 0 < 2 ∧ 4294967290 < 2 ^ 32) ∧
    [encode (.tick 46 false false 4294967290)][0]? = some (encode (.tick 46 false false 4294967290)) := by
  decide

/-- A running state to which the host has issued one bundle. -/
def issued (b : Bundle) : State := running.issueFirst b

theorem witness_StepRunsTheDecodedCommand :
    (issued 0x2E1).inbox = [0x2E1] ∧ (issued 0x2E1).params.wellFormed = true := by decide +kernel

theorem witness_IdleStepHoldsTheState : running.inbox = [] := rfl

/-- The constraints of that statement. -/
def Constraints (p : Params) : Prop :=
  1 ≤ p.nAvg ∧ p.nAvg ≤ 65535 ∧ 1 ≤ p.sensorFaultLimit ∧ p.sensorFaultLimit ≤ 65535 ∧
  2 ≤ p.adcMax ∧ p.adcMax ≤ 65536 ∧
  Binary64.posZero.lt p.vcc = true ∧ p.vcc.isFinite = true ∧
  Binary64.posZero.lt p.rSeries = true ∧ p.rSeries.isFinite = true ∧
  (p.slice6MinPower = 5 ∨ p.slice6MinPower = 6) ∧ p.reflowSub2LimitC.isFinite = true ∧
  (degC 190).le p.reflowSub2LimitC = true ∧ p.reflowSub2LimitC.le (degC 212) = true

/-- The constraints at their lower and their upper bounds. -/
theorem witness_ParameterConstraintsGateTheStep_met :
    (issued 0).inbox = [0] ∧ Constraints (issued 0).params ∧
    Constraints { paramsEx1 with nAvg := 1, sensorFaultLimit := 1, adcMax := 2 } ∧
    Constraints { paramsEx1 with
      nAvg := 65535, sensorFaultLimit := 65535, adcMax := 65536, slice6MinPower := 6
      reflowSub2LimitC := degC 212 } := by
  unfold Constraints
  decide +kernel

/-- A constraint not met, and the bundle issued to that state. -/
theorem witness_ParameterConstraintsGateTheStep_broken :
    ((withParams { paramsEx1 with slice6MinPower := 7 }).issueFirst 0).inbox = [0] ∧
    ¬Constraints { paramsEx1 with slice6MinPower := 7 } := by
  unfold Constraints
  decide +kernel

/-- One issued bundle for each clause. -/
theorem witness_StepPerformsOneCommand :
    (issued 0).inbox = [0] ∧ (issued 0).params.wellFormed = true ∧ (0#52).toNat % 4 = 0 ∧
    (issued 7).inbox = [7] ∧ (7#52).toNat % 4 = 3 ∧
    (issued 0x2E1).inbox = [0x2E1] ∧ (0x2E1#52).toNat % 4 = 1 ∧
    (issued 2).inbox = [2] ∧ (2#52).toNat % 4 = 2 := by decide +kernel

theorem witness_ParametersNeverChange : ∃ t, step (issued 2) = .next t := ⟨_, rfl⟩

/-- A state within the boot delay, begun at `start`. -/
def delaying (start : Millis) : State := { State.reset with boot := { phase := .booting, startMs := start } }

theorem witness_BootSequence :
    State.reset.boot.phase = .waitFirst ∧
    (delaying 500).boot.phase = .booting ∧ ((3499 : Millis) - (delaying 500).boot.startMs).toNat < 3000 ∧
    3000 ≤ ((3500 : Millis) - (delaying 500).boot.startMs).toNat ∧
    (delaying 4294966000).boot.phase = .booting ∧
    3000 ≤ ((2000 : Millis) - (delaying 4294966000).boot.startMs).toNat := by decide

theorem witness_RunTickRunsTheFivePhases : running.boot.phase = .run := rfl

theorem witness_RunTickFrame : (inStage .reflow 0x407e526666666666#64 begun).boot.phase = .run := rfl

/-- Each cause at its bound. -/
theorem witness_InvalidSampleRaisesSensorFault :
    (withParams bounds).boot.phase = .run ∧ (withParams bounds).params.sensorFaultLimit ≤ 65535 ∧
    FaultCause bounds 0 .rawZero ∧ FaultCause bounds 1024 .rawHigh ∧ FaultCause bounds 65535 .rawHigh ∧
    FaultCause bounds 5 .badResult ∧ FaultCause bounds 6 .badResult ∧ FaultCause bounds 8 .badResult := by
  unfold FaultCause
  decide +kernel

/-- A sample that leaves its window open, one that fills it, and the bounds of a valid sample. -/
theorem witness_ValidSampleIsAccumulatedAndPublished :
    running.boot.phase = .run ∧ ValidSample paramsEx1 1 ∧ ValidSample paramsEx1 1023 ∧ ValidSample bounds 7 ∧
    (running.est.cnt + 1).toNat ≠ running.params.nAvg ∧
    ((withParams single).est.cnt + 1).toNat = (withParams single).params.nAvg := by
  unfold ValidSample
  decide +kernel

theorem witness_TemperatureChangesOnlyAtEmission :
    ∃ t, exec (.tick 300 false false 7000) (withParams single) = .next t ∧
      t.est.tempK ≠ (withParams single).est.tempK :=
  ⟨_, rfl, by decide +kernel⟩

theorem witness_AtMostOneEventPerCommand :
    ∃ t, exec (.tick 0 false false 7000) running = .next t ∧ t.events ≠ [] :=
  ⟨_, rfl, by decide⟩

/-- A running state whose sensor fault is latched. -/
def faulted : State := { running with est := { running.est with badCnt := 100, sensorFault := true } }

theorem witness_SensorFaultIsClearedOnlyByReset :
    ∃ t, exec (.tick 46 false false 7000) faulted = .next t ∧ faulted.est.sensorFault = true ∧
      Instr.tick 46 false false 7000 ≠ .reset :=
  ⟨_, rfl, rfl, by decide⟩

theorem witness_ConsecutiveInvalidSamplesLatchTheFault :
    (withParams bounds).boot.phase = .run ∧ (withParams bounds).params.wellFormed = true ∧
    FaultInv (withParams bounds).params (withParams bounds).est ∧
    ∀ i ∈ [TickInput.mk 0 false false 7000, TickInput.mk 5 true true 7010],
      ¬ValidSample (withParams bounds).params i.raw := by
  unfold ValidSample
  exact ⟨rfl, by decide +kernel, ⟨by decide, by decide⟩, by decide +kernel⟩

theorem witness_FullWindowPublishesTheBlockAverage :
    let s := withParams { paramsEx1 with nAvg := 2 }
    let ticks := [TickInput.mk 1 false false 7000, TickInput.mk 1023 true true 7010]
    s.boot.phase = .run ∧ s.params.wellFormed = true ∧ s.est.acc = ⟨0⟩ ∧ s.est.cnt = 0 ∧
    ticks.length = s.params.nAvg ∧ ∀ i ∈ ticks, ValidSample s.params i.raw := by
  unfold ValidSample
  decide +kernel

theorem witness_EstimatorIgnoresButtonDoorAndTime : running.boot.phase = .run := rfl

theorem witness_ButtonReleaseRestartsTheHold :
    running.boot.phase = .run ∧ running.ctl.stage = .off ∧
    (inStage .hold 0#64 .cleared).boot.phase = .run ∧ (inStage .hold 0#64 .cleared).ctl.stage = .hold := by
  decide

theorem witness_PressInOffEntersHold : running.boot.phase = .run ∧ running.ctl.stage = .off := by decide

/-- CT5 and CT4: held for 3000 ms, and for 2999 ms. -/
theorem witness_HoldStartsARunOnItsConditions :
    let s := inStage .hold 0x40761db21c41fac8#64 .cleared
    s.boot.phase = .run ∧ s.ctl.stage = .hold ∧
    (3000 ≤ ((6000 : Millis) - s.ctl.pressStartMs).toNat ∧
      (ticked 46 true false 6000 s).est.tempValid = true ∧
      (ticked 46 true false 6000 s).est.sensorFault = false) ∧
    ¬3000 ≤ ((5999 : Millis) - s.ctl.pressStartMs).toNat := by decide +kernel

theorem witness_ButtonDuringARunOnlyMovesTheHoldTimer :
    let s := inStage .cool 0x407ed3dd2a349323#64 cooling
    s.boot.phase = .run ∧ s.ctl.stage ≠ .off ∧ s.ctl.stage ≠ .hold := by decide

/-- A state of each stage just below and at a bound of its table, for each of the nine rows. -/
theorem witness_HeatingStageAppliesTheFirstRow :
    (inStage .preheat 0x4073926666666665#64 begun).boot.phase = .run ∧
    ([(Stage.preheat, 0x4073926666666665#64), (.preheat, 0x4073926666666666#64),
      (.preheat, 0x4077526666666666#64), (.soak, 0x407a726666666665#64), (.soak, 0x407a726666666666#64),
      (.soak, 0x407bb26666666666#64), (.reflow, 0x407cf26666666665#64), (.reflow, 0x407cf26666666666#64)].map
        fun x => (profileRow (inStage x.1 x.2 begun).params x.1
          (celsius (ticked 46 false false 7000 (inStage x.1 x.2 begun)).est.tempK)).map (·.substage)) =
      [some 1, some 2, some 3, some 1, some 2, some 3, some 1, some 3] ∧
    (profileRow { paramsEx1 with reflowSub2LimitC := degC 200 } .reflow
      (celsius ⟨0x407cf26666666666#64⟩)).map (·.substage) = some 2 := by decide +kernel

/-- CT11 and CT13, at the bounds. -/
theorem witness_StageExitHoldsTheOutputs :
    let p := inStage .preheat 0x4079d26666666666#64 begun
    let q := inStage .soak 0x407c526666666666#64 begun
    p.boot.phase = .run ∧ p.ctl.stage = .preheat ∧
    (degC 140).le (celsius (ticked 46 false false 7000 p).est.tempK) = true ∧
    q.boot.phase = .run ∧ q.ctl.stage = .soak ∧
    (degC 180).le (celsius (ticked 46 false false 7000 q).est.tempK) = true := by decide +kernel

/-- CT16. -/
theorem witness_ReflowExitEntersCool :
    let s := inStage .reflow 0x407e526666666666#64 begun
    s.boot.phase = .run ∧ s.params.wellFormed = true ∧ s.ctl.stage = .reflow ∧
    (degC 212).le (celsius (ticked 46 false false 9000 s).est.tempK) = true := by decide +kernel

/-- CT22: a checkpoint latched at 50 °C, and CT23: one not latched again. -/
theorem witness_RisingCheckpointsLatchOnce :
    let s := inStage .preheat 0x4074326666666666#64 begun
    let r := inStage .soak 0x4074326666666666#64 { begun with el50 := ⟨2, true⟩ }
    s.boot.phase = .run ∧ s.ctl.stage = .preheat ∧ r.boot.phase = .run ∧ r.ctl.stage = .soak ∧
    ((degC 50).le (celsius (ticked 46 false false 8999 s).est.tempK) = true ∧
      s.ctl.record.el50.valid = false) ∧
    ¬((degC 50).le (celsius (ticked 46 false false 8999 r).est.tempK) = true ∧
      r.ctl.record.el50.valid = false) := by decide +kernel

/-- CT19b and CT19c: just above 50 °C, and at it. -/
theorem witness_CoolTracksThePeakAndEndsTheRun :
    let s := inStage .cool 0x4074326666666667#64 cooling
    let r := inStage .cool 0x4074326666666666#64 cooling
    s.boot.phase = .run ∧ s.ctl.stage = .cool ∧
    (celsius (ticked 46 false false 60000 s).est.tempK).le (degC 50) = false ∧
    r.boot.phase = .run ∧ r.ctl.stage = .cool ∧
    (celsius (ticked 46 false false 60000 r).est.tempK).le (degC 50) = true := by decide +kernel

theorem witness_SensorFaultTurnsTheHeatersOff :
    faulted.boot.phase = .run ∧ faulted.params.wellFormed = true ∧
    (ticked 46 false false 7000 faulted).est.sensorFault = true := by decide +kernel

/-- A TICK that changes the stage, and for each transition of the summary a state that meets its condition. -/
theorem witness_StageTransitionsAreTheSummary :
    (∃ t, exec (.tick 46 true false 7000) running = .next t ∧ t.ctl.stage ≠ running.ctl.stage) ∧
    running.params.wellFormed = true ∧
    Transition running.est running.ctl true 7000 .off .hold ∧
    Transition running.est running.ctl false 7000 .hold .off ∧
    Transition (inStage .hold 0#64 .cleared).est (inStage .hold 0#64 .cleared).ctl true 6000 .hold .preheat ∧
    Transition (inStage .preheat 0x4079d26666666666#64 begun).est running.ctl false 0 .preheat .soak ∧
    Transition (inStage .soak 0x407c526666666666#64 begun).est running.ctl false 0 .soak .reflow ∧
    Transition (inStage .reflow 0x407e526666666666#64 begun).est running.ctl false 0 .reflow .cool ∧
    Transition (inStage .cool 0x4074326666666666#64 cooling).est running.ctl false 0 .cool .off := by
  refine ⟨⟨_, rfl, by decide +kernel⟩, by decide +kernel, rfl, rfl, ⟨rfl, by decide, rfl, rfl⟩, ?_, ?_, ?_, ?_⟩
  · change (degC 140).le (celsius ⟨0x4079d26666666666#64⟩) = true
    decide +kernel
  · change (degC 180).le (celsius ⟨0x407c526666666666#64⟩) = true
    decide +kernel
  · change (degC 212).le (celsius ⟨0x407e526666666666#64⟩) = true
    decide +kernel
  · change (celsius ⟨0x4074326666666666#64⟩).le (degC 50) = true
    decide +kernel

/-- CT24 with two checkpoints recorded before. -/
theorem witness_CheckpointsStayOrdered :
    let s := inStage .preheat 0x407cfad14cd91d3c#64 { begun with el50 := ⟨2, true⟩, el150 := ⟨3, true⟩ }
    (∃ t, exec (.tick 46 false false 9500) s = .next t) ∧ CheckpointsOrdered s.ctl.record ∧
      (∀ raw btn door now, Instr.tick 46 false false 9500 = .tick raw btn door now →
        CheckpointsNotAfter (elapsedSeconds now s.ctl.record.runStartMs) s.ctl.record) ∧
      s.ctl.stage = .preheat := by
  refine ⟨⟨_, rfl⟩, ⟨by decide, by decide⟩, ?_, rfl⟩
  rintro raw btn door now h
  cases h
  exact ⟨by decide, by decide, by decide⟩

/-- Both sides of each bound. -/
theorem witness_SliceBoundaries : ∀ e ∈ [0, 165, 166, 332, 333, 499, 500, 665, 666, 832, 833, 999], e < 1000 := by
  decide

theorem witness_RelaysFollowThePowersThroughTheSlices : running.boot.phase = .run ∧
    ¬1000 ≤ ((999 : Millis) - running.pwm.startMs).toNat ∧
    1000 ≤ ((1000 : Millis) - running.pwm.startMs).toNat := by decide

/-- AL5 and AL6. -/
theorem witness_DoorAlarmRule :
    let s := inStage .cool 0x407ed3dd2a349323#64 cooling
    s.boot.phase = .run ∧ (ticked 46 false false 57999 s).ctl.stage = .cool ∧
    ¬8000 ≤ ((57999 : Millis) - (ticked 46 false false 57999 s).ctl.record.doorOpenMs).toNat ∧
    8000 ≤ ((58000 : Millis) - (ticked 46 false false 58000 s).ctl.record.doorOpenMs).toNat := by
  decide +kernel

/-- BP2, BP3 and BP5. -/
theorem witness_BeeperRule :
    let s := { running with alarm := { running.alarm with beepStartMs := 10000 } }
    s.boot.phase = .run ∧ ((10999 : Millis) - s.alarm.beepStartMs).toNat < 1000 ∧
    ¬((11000 : Millis) - s.alarm.beepStartMs).toNat < 1000 ∧
    ¬2000 ≤ ((11999 : Millis) - s.alarm.beepStartMs).toNat ∧
    2000 ≤ ((12000 : Millis) - s.alarm.beepStartMs).toNat := by decide

/-- A state in Cool that meets the invariant, with a TICK issued. -/
def coolState : State := (inStage .cool 0x407ed3dd2a349323#64 cooling).issueFirst 0x0001E24003B69

theorem coolState_meets_the_invariant : Inv coolState :=
  { isInstance := by decide +kernel
    window := ⟨by decide, by decide, by decide, by decide +kernel, by decide +kernel⟩
    published := ⟨by decide, by decide +kernel⟩
    fault := ⟨by decide, by decide⟩
    controller := ⟨by decide, by decide, by decide, by decide, by decide, by decide⟩
    outputs := ⟨by decide, by decide, by decide⟩
    boot := ⟨fun h => absurd rfl h, fun h => by cases h⟩
    events := by decide }

/-- A state in Preheat that meets the invariant. -/
def heatState : State := inStage .preheat 0x40761db21c41fac8#64 begun

theorem heatState_meets_the_invariant : Inv heatState :=
  { isInstance := by decide +kernel
    window := ⟨by decide, by decide, by decide, by decide +kernel, by decide +kernel⟩
    published := ⟨by decide, by decide +kernel⟩
    fault := ⟨by decide, by decide⟩
    controller := ⟨by decide, by decide, by decide, by decide, by decide, by decide⟩
    outputs := ⟨by decide, by decide, by decide⟩
    boot := ⟨fun h => absurd rfl h, fun h => by cases h⟩
    events := by decide }

/-- Outside Cool; in Cool at 7999 ms and at 8000 ms after the door-open timestamp. -/
theorem witness_AlarmTruthTable :
    (heatState.boot.phase = .run ∧ Inv heatState ∧ (ticked 46 false true 7000 heatState).ctl.stage ≠ .cool) ∧
    (coolState.boot.phase = .run ∧ Inv coolState ∧
      (ticked 46 false false 57999 coolState).ctl.stage = .cool ∧
      ((57999 : Millis) - (ticked 46 false false 57999 coolState).ctl.record.doorOpenMs).toNat < 8000 ∧
      (ticked 46 false false 58000 coolState).ctl.stage = .cool ∧
      8000 ≤ ((58000 : Millis) - (ticked 46 false false 58000 coolState).ctl.record.doorOpenMs).toNat) :=
  ⟨⟨rfl, heatState_meets_the_invariant, by decide +kernel⟩,
    ⟨rfl, coolState_meets_the_invariant, by decide +kernel⟩⟩

/-- 0.1 and −3.0, the second with a value that is not zero. -/
theorem witness_ArithmeticRoundsToNearestEven :
    Binary64.isFinite ⟨0x3FB999999999999A#64⟩ = true ∧ Binary64.isFinite ⟨0xC008000000000000#64⟩ = true ∧
    Binary64.toUnits ⟨0xC008000000000000#64⟩ ≠ 0 := by decide +kernel

/-- The largest finite number and the smallest, which stand beside the infinities, and a NaN. -/
theorem witness_ComparisonsCompareTheValues :
    Binary64.isFinite ⟨0x7FEFFFFFFFFFFFFF#64⟩ = true ∧ Binary64.isFinite ⟨0xFFEFFFFFFFFFFFFF#64⟩ = true ∧
    Binary64.isNaN ⟨0x7FF0000000000001#64⟩ = true := by decide

theorem witness_SmallIntegersConvertExactly : 0 < 2 ^ 53 ∧ 2 ^ 53 - 1 < 2 ^ 53 := by decide

/-- The first and the last listed threshold. -/
theorem witness_ThresholdTemperaturesAreExact :
    (40, 0x4073926666666666) ∈ [(40, 0x4073926666666666), (50, 0x4074326666666666),
      (100, 0x4077526666666666), (140, 0x4079d26666666666), (150, 0x407a726666666666),
      (170, 0x407bb26666666666), (180, 0x407c526666666666), (190, 0x407cf26666666666),
      (212, 0x407e526666666666)] := by decide

/-- A set that lists no code, with a supply of 1.0 and a series resistor of 4700.0. -/
def unlisted : Params := { paramsEx1 with linTable := [], vcc := ⟨0x3FF0000000000000#64⟩ }

/-- A supply of 1.0e308 and a resistor of 1.0e10, whose products overflow. -/
def overflowing : Params :=
  { paramsEx1 with linTable := [], vcc := ⟨0x7FE1CCF385EBC8A0#64⟩, rSeries := ⟨0x4202A05F20000000#64⟩ }

/-- An infinity divided by an infinity is a NaN, and so is what is subtracted from it. -/
theorem overflow_isNaN {x y z : Binary64} (hx : x = .inf false) (hy : y = .inf false) :
    ((x.div y).sub z).isNaN = true := by
  have h : x.div y = .nan .div (.inf false) (.inf false) := by subst hx hy; rfl
  rw [h, Binary64.sub, Binary64.addAs, Binary64.nan_isNaN, Bool.true_or, if_pos rfl]
  exact Binary64.nan_isNaN ..

/-- A resistance above 0, one of 0 (at `ADC_MAX`), and one below 0. -/
theorem witness_UnlistedCodesUseTheReferenceOrder :
    (unlisted.linTable.lookup 512 = none ∧ unlisted.linTable.lookup 1024 = none ∧
      unlisted.linTable.lookup 2048 = none) ∧
    Binary64.posZero.lt (linRth unlisted 512) = true ∧
    ((linRth unlisted 1024).le .posZero = true ∧ Binary64.posZero.le (linRth unlisted 1024) = true) ∧
    (linRth unlisted 2048).lt .posZero = true := by decide +kernel

/-- And a NaN, of an instance. -/
theorem witness_UnlistedCodesUseTheReferenceOrder_nan :
    (overflowing.wellFormed = true ∧ overflowing.linTable.lookup 65535 = none) ∧
    (linRth overflowing 65535).isNaN = true := by
  have h1 : overflowing.vcc.mul overflowing.rSeries = .inf false := by decide +kernel
  have h2 : linVout overflowing 65535 = .inf false := by decide +kernel
  rw [linRth]
  exact And.intro (by decide +kernel) (overflow_isNaN h1 h2)

/-- An instance with windows of two samples and one valid code, at which the resistance is 1 ohm and its logarithm 0, so that the exact
temperature is 1 / `SH_A` = 256 K whatever `SH_B` and `SH_C`; `LIN` gives it. -/
def exact256 : Params :=
  { paramsEx1 with
    nAvg := 2
    adcMax := 2
    rSeries := ⟨0x3FF0000000000000#64⟩
    shA := ⟨0x3F70000000000000#64⟩
    linTable := [(1, ⟨0x4070000000000000#64⟩)] }

theorem value_exists {x : Binary64} (h : x.isFinite = true) : ∃ r, Binary64Value x r :=
  ⟨x.toUnits / 2 ^ 1074, h, div_mul_cancel₀ _ (by positivity)⟩

theorem value_pos {x : Binary64} {r : ℝ} (h : Binary64Value x r) (hx : 0 < x.toUnits) : 0 < r := by
  have h' : (0 : ℝ) < r * 2 ^ 1074 := by rw [h.2]; exact_mod_cast hx
  exact pos_of_mul_pos_left h' (by positivity)

theorem value_unique {x : Binary64} {r r' : ℝ} (h : Binary64Value x r) (h' : Binary64Value x r') : r = r' :=
  mul_right_cancel₀ (pow_ne_zero 1074 two_ne_zero) (h.2.trans h'.2.symm)

/-- A power of two no smaller than 2^-1074. -/
theorem value_pow {x : Binary64} {k : Nat} (hf : x.isFinite = true) (hx : x.toUnits = 2 ^ k) (hk : k ≤ 1074) :
    Binary64Value x (1 / 2 ^ (1074 - k)) := by
  refine ⟨hf, ?_⟩
  rw [hx]
  push_cast
  rw [div_mul_eq_mul_div, one_mul, div_eq_iff (by positivity), ← pow_add, Nat.add_sub_cancel' hk]

theorem value_one : Binary64Value exact256.rSeries 1 := by
  have h := value_pow (x := exact256.rSeries) (k := 1074) (by decide) (by decide +kernel) le_rfl
  simpa using h

theorem value_shA : Binary64Value exact256.shA (1 / 256) := by
  have h := value_pow (x := exact256.shA) (k := 1066) (by decide) (by decide +kernel) (by omega)
  norm_num at h ⊢
  exact h

/-- The exact conversion of that instance's one code, at any supply voltage. -/
theorem exact256_conversion {vcc : Binary64} (hf : vcc.isFinite = true) (hv : 0 < vcc.toUnits) {temp : ℝ} :
    ExactConversion { exact256 with vcc := vcc } 1 temp ↔ temp = 256 := by
  have hadc : ((exact256.adcMax : Nat) : ℝ) = 2 := by norm_num [exact256]
  have hraw : (((1 : AdcCode).toNat : Nat) : ℝ) = 1 := by rw [show (1 : AdcCode).toNat = 1 from rfl, Nat.cast_one]
  have hrth : ∀ v : ℝ, 0 < v → v * 1 / (1 * v / 2) - 1 = 1 := by
    intro v h
    field_simp
    norm_num
  constructor
  · rintro ⟨v, r, a, b, c, vout, rth, h1, h2, h3, h4, h5, h6, h7, h8⟩
    have hr : r = 1 := value_unique h2 value_one
    have ha : a = 1 / 256 := value_unique h3 value_shA
    rw [h8, h7, h6, hr, ha]
    change 1 / (1 / 256 + b * Real.log (v * 1 / (_ * v / ((exact256.adcMax : Nat) : ℝ)) - 1) + _) = 256
    rw [hadc, hraw, hrth v (value_pos h1 hv), Real.log_one]
    norm_num
  · rintro rfl
    obtain ⟨v, h1⟩ := value_exists hf
    obtain ⟨b, h4⟩ := value_exists (x := exact256.shB) (by decide)
    obtain ⟨c, h5⟩ := value_exists (x := exact256.shC) (by decide)
    refine ⟨v, 1, 1 / 256, b, c, _, _, h1, value_one, value_shA, h4, h5, rfl, rfl, ?_⟩
    change 256 = 1 / (1 / 256 + b * Real.log (v * 1 / (_ * v / ((exact256.adcMax : Nat) : ℝ)) - 1) + _)
    rw [hadc, hraw, hrth v (value_pos h1 hv), Real.log_one]
    norm_num

theorem exact256_tolerance {vcc : Binary64} (hf : vcc.isFinite = true) (hv : 0 < vcc.toUnits) :
    LinWithinTolerance { exact256 with vcc := vcc } := by
  intro raw temp h1 h2 he ht
  have hraw : raw = 1 := by
    apply BitVec.eq_of_toNat_eq
    have h2' : raw.toNat ≤ 2 - 1 := h2
    change raw.toNat = 1
    omega
  subst hraw
  rw [exact256_conversion hf hv] at he
  subst he
  have hl : lin { exact256 with vcc := vcc } 1 = ⟨0x4070000000000000#64⟩ := rfl
  have hu : Binary64.toUnits ⟨0x4070000000000000#64⟩ = 2 ^ 1082 := by decide +kernel
  rw [hl]
  refine ⟨256, ⟨by decide, ?_⟩, by norm_num⟩
  rw [hu, Int.cast_pow, Int.cast_ofNat, show (1082 : Nat) = 8 + 1074 from rfl, pow_add,
    show (2 : ℝ) ^ 8 = 256 by norm_num]

/-- The instance's one code with another supply voltage, in a sample that leaves the window of two open and in
one that fills it. -/
theorem witness_ConformingSampleIsAccumulated :
    let s := withParams exact256
    let r := { s with est := { s.est with acc := ⟨0x4070000000000000#64⟩, cnt := 1 } }
    (s.boot.phase = .run ∧ s.params.wellFormed = true ∧ LinWithinTolerance s.params) ∧
    (r.boot.phase = .run ∧ r.params = s.params) ∧
    (1 ≤ (1 : AdcCode).toNat ∧ (1 : AdcCode).toNat ≤ s.params.adcMax - 1) ∧
    (Binary64.isPositiveFinite ⟨0x4014000000000000#64⟩ = true ∧
      ExactConversion { s.params with vcc := ⟨0x4014000000000000#64⟩ } 1 256) ∧
    ((0 : ℝ) < 256 ∧ (1 + 1e-12) * (256 : ℝ) < 1e6) ∧
    (s.est.cnt + 1).toNat ≠ s.params.nAvg ∧ (r.est.cnt + 1).toNat = r.params.nAvg :=
  ⟨⟨rfl, by decide +kernel, exact256_tolerance (vcc := exact256.vcc) (by decide) (by decide +kernel)⟩,
    ⟨rfl, rfl⟩, ⟨by decide, by decide⟩,
    ⟨by decide, (exact256_conversion (by decide) (by decide +kernel)).2 rfl⟩, ⟨by norm_num, by norm_num⟩,
    by decide, by decide⟩

theorem witness_ResetMeetsTheInvariant : { paramsEx1 with nAvg := 65535 }.wellFormed = true := by
  decide +kernel

/-- A TICK of the cooling state. -/
theorem witness_StepKeepsTheInvariant : Inv coolState ∧ ∃ t, step coolState = .next t :=
  ⟨coolState_meets_the_invariant, _, rfl⟩

end Sys2Proof.Tests
end

section
/-! A shift of the time base (R8, R91, R315): the timestamps that are live move with the clock, the phases of
TICK read differences of times only, so each phase commutes with the shift. -/

namespace Sys2Proof.Machine

/-! ### Time differences -/

/-- A shift of both times leaves their difference as it is (R8). -/
@[simp] theorem elapsedMs_shift (now since d : Millis) :
    elapsedMs (now + d) (since + d) = elapsedMs now since := by
  unfold elapsedMs
  rw [add_sub_add_right_eq_sub]

@[simp] theorem elapsedSeconds_shift (now since d : Millis) :
    elapsedSeconds (now + d) (since + d) = elapsedSeconds now since := by
  unfold elapsedSeconds
  rw [elapsedMs_shift]

/-! ### The Stage Controller -/

/-- The live timestamps of the Stage Controller moved by `d`, once the boot has ended. -/
def shiftController (d : Millis) (c : StageController) : StageController :=
  { c with record := shiftRecord d c.stage c.record, pressStartMs := c.pressStartMs + d }

section
variable (d : Millis) (c : StageController)

@[simp] theorem shiftController_stage : (shiftController d c).stage = c.stage := rfl

/-- In a run the run's start is live. -/
theorem shiftController_runStartMs (h : c.stage.isNegative = false) :
    (shiftController d c).record.runStartMs = c.record.runStartMs + d := by
  simp [shiftController, shiftRecord, h]

/-- A latched door-open timestamp is live. -/
theorem shiftController_doorOpenMs (h : c.record.doorOpenValid = true) :
    (shiftController d c).record.doorOpenMs = c.record.doorOpenMs + d := by
  simp [shiftController, shiftRecord, h]

/-- A stage written on the same side of 0 leaves the same timestamps live. -/
theorem shiftController_setStage {stage : Stage} (h : stage.isNegative = c.stage.isNegative) :
    { shiftController d c with stage := stage } = shiftController d { c with stage := stage } := by
  simp [shiftController, shiftRecord, h]

/-- A record with nothing recorded has no live timestamp in Off and Hold. -/
theorem shiftRecord_cleared {stage : Stage} (h : stage.isNegative = true) :
    shiftRecord d stage .cleared = .cleared := by
  simp [shiftRecord, RunRecord.cleared, h]

end

section
variable {d now : Millis} {e : Estimator} {c : StageController}

theorem startCondition_shift (press : Millis) :
    startCondition e (press + d) (now + d) = startCondition e press now := by
  unfold startCondition
  rw [elapsedMs_shift]

theorem startRun_shift : startRun (now + d) (shiftController d c) = shiftController d (startRun now c) := by
  simp [startRun, shiftController, shiftRecord, RunRecord.cleared, isNegative_eq]

theorem buttonReleased_shift :
    buttonReleased (now + d) (shiftController d c) = shiftController d (buttonReleased now c) := by
  unfold buttonReleased
  rw [shiftController_stage]
  split_ifs with h
  · exact shiftController_setStage d { c with pressStartMs := now }
      (by rw [isNegative_eq c.stage, decide_eq_true h]; rfl)
  · rfl

/-- The button part compares the hold timer's age only (R183). -/
theorem buttonPart_shift (btn : Bool) :
    buttonPart e btn (now + d) (shiftController d c) = shiftController d (buttonPart e btn now c) := by
  cases btn with
  | false => exact buttonReleased_shift
  | true =>
    by_cases hoff : c.stage = .off
    · rw [buttonPart_off hoff, buttonPart_off (c := shiftController d c) hoff]
      exact shiftController_setStage d c (by rw [hoff]; rfl)
    · by_cases hhold : c.stage = .hold
      · cases hs : startCondition e c.pressStartMs now with
        | true =>
          rw [buttonPart_start hhold hs, buttonPart_start (c := shiftController d c) hhold
            ((startCondition_shift _).trans hs)]
          exact startRun_shift
        | false =>
          rw [buttonPart_holding hhold hs, buttonPart_holding (c := shiftController d c) hhold
            ((startCondition_shift _).trans hs)]
      · rw [buttonPart_in_run hoff hhold, buttonPart_in_run (c := shiftController d c) hoff hhold]
        rfl

theorem checkpointsUp_shift (t : Binary64) (es : Seconds) :
    checkpointsUp t es (shiftController d c) = shiftController d (checkpointsUp t es c) := rfl

theorem preheatTable_shift (t : Binary64) (h : c.stage = .preheat) :
    preheatTable t (shiftController d c) = shiftController d (preheatTable t c) := by
  unfold preheatTable
  split_ifs
  · rfl
  · rfl
  · rfl
  · exact shiftController_setStage d c (by rw [h]; rfl)
  · rfl

theorem soakTable_shift (t : Binary64) (h : c.stage = .soak) :
    soakTable t (shiftController d c) = shiftController d (soakTable t c) := by
  unfold soakTable
  split_ifs
  · rfl
  · rfl
  · rfl
  · exact shiftController_setStage d c (by rw [h]; rfl)
  · rfl

theorem enterCool_shift (h : c.stage = .reflow) :
    enterCool (now + d) (shiftController d c) = shiftController d (enterCool now c) := by
  simp [enterCool, outputsOff, setOutputs, shiftController, shiftRecord, h, isNegative_eq]

theorem reflowTable_shift (p : Params) (t : Binary64) (h : c.stage = .reflow) :
    reflowTable p t (now + d) (shiftController d c) = shiftController d (reflowTable p t now c) := by
  unfold reflowTable
  split_ifs
  · rfl
  · rfl
  · rfl
  · exact enterCool_shift h
  · rfl

theorem trackPeak_shift (t : Binary64) (es : Seconds) :
    trackPeak t es (shiftController d c) = shiftController d (trackPeak t es c) := by
  cases h : c.record.maxTempC.lt t with
  | true => rw [trackPeak_new h, trackPeak_new (c := shiftController d c) h]; rfl
  | false => rw [trackPeak_old h, trackPeak_old (c := shiftController d c) h]

theorem coolTable_shift (t : Binary64) (es : Seconds) :
    coolTable t es (shiftController d c) = shiftController d (coolTable t es c) := by
  cases h : t.le (degC 50) with
  | true =>
    rw [coolTable_end_eq h, coolTable_end_eq h]
    simp [shiftController, shiftRecord_cleared, isNegative_eq]
  | false =>
    rw [coolTable_on h, coolTable_on h]
    exact congrArg (checkpointDown t es) (trackPeak_shift (c := outputsOff c) t es)

theorem profilePart_shift (p : Params) {s0 : Stage} (t : Binary64) (es : Seconds)
    (h : s0.isNegative = false → c.stage = s0) :
    profilePart p s0 t es (now + d) (shiftController d c) =
      shiftController d (profilePart p s0 t es now c) := by
  cases s0 with
  | off => rfl
  | hold => rfl
  | preheat =>
    exact (congrArg (preheatTable t) (checkpointsUp_shift t es)).trans (preheatTable_shift t (h rfl))
  | soak => exact (congrArg (soakTable t) (checkpointsUp_shift t es)).trans (soakTable_shift t (h rfl))
  | reflow => exact reflowTable_shift p t (h rfl)
  | cool => exact coolTable_shift t es

/-- The stage that the button part leaves a run in is the one it found. -/
theorem buttonPart_stage_in_run (btn : Bool) (h : c.stage.isNegative = false) :
    (buttonPart e btn now c).stage = c.stage := by
  rw [isNegative_eq, decide_eq_false_iff_not, not_or] at h
  rw [buttonPart_in_run h.1 h.2]
  rfl

/-- Off and Hold read no elapsed seconds. -/
theorem profilePart_of_isNegative (p : Params) {s0 : Stage} (t : Binary64) (es : Seconds)
    (h : s0.isNegative = true) : profilePart p s0 t es now c = outputsOff c := by
  rw [isNegative_eq, decide_eq_true_eq] at h
  rcases h with rfl | rfl <;> rfl

theorem safetyOverride_shift (b : Bool) :
    safetyOverride b (shiftController d c) = shiftController d (safetyOverride b c) := by
  cases b <;> rfl

/-- CONTROL decides on time differences only: the elapsed seconds are read in a run alone, where the run's
start is live (R201, R204). -/
theorem controlled_shift (p : Params) (btn : Bool) :
    controlled p e btn (now + d) (shiftController d c) =
      shiftController d (controlled p e btn now c) := by
  unfold controlled
  dsimp only
  rw [shiftController_stage, buttonPart_shift]
  cases h : c.stage.isNegative with
  | true =>
    rw [profilePart_of_isNegative _ _ _ h, profilePart_of_isNegative _ _ _ h]
    exact safetyOverride_shift e.sensorFault (c := outputsOff (buttonPart e btn now c))
  | false =>
    rw [shiftController_runStartMs d c h, elapsedSeconds_shift,
      profilePart_shift _ _ _ fun _ => buttonPart_stage_in_run btn h, safetyOverride_shift]

/-- The Cooldown suppression reads the door-open timestamp only where it is live (R262). -/
theorem gatedAlarm_shift (door : Bool) :
    gatedAlarm door (now + d) (shiftController d c) = gatedAlarm door now c := by
  have hs : alarmSuppressed (now + d) (shiftController d c) = alarmSuppressed now c := by
    cases hv : c.record.doorOpenValid with
    | false => simp [alarmSuppressed, shiftController, shiftRecord, hv]
    | true =>
      unfold alarmSuppressed
      rw [shiftController_doorOpenMs d c hv, elapsedMs_shift]
      rfl
  unfold gatedAlarm
  rw [hs]
  rfl

end

/-! ### The output units -/

/-- The PWM Duty Driver on a clock that reads `d` more, once the boot has ended. -/
def shiftPwm (d : Millis) (w : PwmDriver) : PwmDriver := { w with startMs := w.startMs + d }

/-- The beeper on a clock that reads `d` more, once the boot has ended. -/
def shiftAlarm (d : Millis) (a : AlarmMonitor) : AlarmMonitor := { a with beepStartMs := a.beepStartMs + d }

section
variable {d now : Millis}

theorem pwmCycleStart_shift (start : Millis) :
    pwmCycleStart (now + d) (start + d) = pwmCycleStart now start + d := by
  unfold pwmCycleStart
  rw [elapsedMs_shift]
  split_ifs <;> rfl

theorem beepCycleStart_shift (start : Millis) :
    beepCycleStart (now + d) (start + d) = beepCycleStart now start + d := by
  unfold beepCycleStart
  rw [elapsedMs_shift]
  split_ifs <;> rfl

theorem driven_shift (p : Params) (top bot : Power) (w : PwmDriver) :
    driven p top bot (now + d) (shiftPwm d w) = shiftPwm d (driven p top bot now w) := by
  simp [driven, shiftPwm, pwmCycleStart_shift]

theorem beeped_shift (a : AlarmMonitor) : beeped (now + d) (shiftAlarm d a) = shiftAlarm d (beeped now a) := by
  simp [beeped, shiftAlarm, beepCycleStart_shift]

end

/-! ### The phases -/

/-- `shiftTime` in RUN, where every unit's timer is live. -/
def shiftRunning (d : Millis) (s : State) : State :=
  { s with
    boot := { s.boot with startMs := s.boot.startMs + d }
    ctl := shiftController d s.ctl
    pwm := shiftPwm d s.pwm
    alarm := shiftAlarm d s.alarm }

theorem shiftTime_of_run {d : Millis} {s : State} (h : s.boot.phase = .run) :
    shiftTime d s = shiftRunning d s := by
  simp [shiftTime, shiftRunning, shiftController, shiftPwm, shiftAlarm, h]

section
variable (d now : Millis) (s : State)

@[simp] theorem shiftRunning_params : (shiftRunning d s).params = s.params := rfl

/-- ESTIMATE reads and writes no time. -/
theorem estimate_shiftRunning (raw : AdcCode) :
    estimate raw (shiftRunning d s) = shiftRunning d (estimate raw s) := by
  unfold estimate
  rw [shiftRunning_params]
  cases sampleGuard s.params raw with
  | error code => rfl
  | ok t =>
    by_cases h : (accumulate t s.est).cnt.toNat = s.params.nAvg
    · exact (acceptSample_of_full (s := shiftRunning d s) h).trans
        (congrArg (shiftRunning d) (acceptSample_of_full h).symm)
    · exact (acceptSample_of_open (s := shiftRunning d s) h).trans
        (congrArg (shiftRunning d) (acceptSample_of_open h).symm)

theorem control_shiftRunning (btn : Bool) :
    control btn (now + d) (shiftRunning d s) = shiftRunning d (control btn now s) :=
  congrArg (shiftRunning d s).setCtl (controlled_shift s.params btn)

theorem alarm_shiftRunning (door : Bool) :
    alarm door (now + d) (shiftRunning d s) = shiftRunning d (alarm door now s) :=
  congrArg (fun active => (shiftRunning d s).setAlarm { shiftAlarm d s.alarm with alarmActive := active })
    (gatedAlarm_shift door)

theorem pwm_shiftRunning : pwm (now + d) (shiftRunning d s) = shiftRunning d (pwm now s) :=
  congrArg (shiftRunning d s).setPwm (driven_shift s.params s.ctl.topPower s.ctl.botPower s.pwm)

theorem beep_shiftRunning : beep (now + d) (shiftRunning d s) = shiftRunning d (beep now s) :=
  congrArg (shiftRunning d s).setAlarm (beeped_shift s.alarm)

theorem body_shiftRunning (raw : AdcCode) (btn door : Bool) :
    body raw btn door (now + d) (shiftRunning d s) = shiftRunning d (body raw btn door now s) := by
  unfold body
  rw [estimate_shiftRunning, control_shiftRunning, alarm_shiftRunning, pwm_shiftRunning, beep_shiftRunning]

/-- A BODY of a state in RUN commutes with the shift of the time base. -/
theorem body_shiftTime (raw : AdcCode) (btn door : Bool) (h : s.boot.phase = .run) :
    body raw btn door (now + d) (shiftTime d s) = shiftTime d (body raw btn door now s) := by
  rw [shiftTime_of_run h, shiftTime_of_run ((congrArg BootSequencer.phase (body_boot ..)).trans h),
    body_shiftRunning]

end

/-! ### The commands -/

section
variable (d : Millis) (s : State)

@[simp] theorem shiftTime_phase : (shiftTime d s).boot.phase = s.boot.phase := by
  unfold shiftTime
  dsimp only
  split <;> rfl

theorem shiftTime_clearEvents : (shiftTime d s).clearEvents = shiftTime d s.clearEvents := rfl

/-- Once the boot sequence has begun its start is live. -/
theorem shiftTime_startMs (h : s.boot.phase ≠ .waitFirst) :
    (shiftTime d s).boot.startMs = s.boot.startMs + d := by
  simp [shiftTime, h]

end

/-- A TICK on a shifted clock does to the shifted state what it does to the state (R91). -/
theorem ticked_shiftTime (d : Millis) (raw : AdcCode) (btn door : Bool) (now : Millis) (s : State) :
    ticked raw btn door (now + d) (shiftTime d s) = shiftTime d (ticked raw btn door now s) := by
  have hphase := shiftTime_phase d s
  have hage (h : s.boot.phase = .booting) :
      elapsedMs (now + d) (shiftTime d s).boot.startMs = elapsedMs now s.boot.startMs := by
    rw [shiftTime_startMs d s (by simp [h]), elapsedMs_shift]
  obtain ⟨h, ht⟩ | ⟨h, he, ht⟩ | ⟨h, he, ht⟩ | ⟨h, ht⟩ := ticked_cases raw btn door now s
  · rw [ht, ticked_waitFirst (hphase.trans h)]
    simp [shiftTime, State.setBoot, State.clearEvents, h]
  · rw [ht, ticked_booting (hphase.trans h) ((hage h).trans_lt he), shiftTime_clearEvents]
  · rw [ht, ticked_bootEnd (hphase.trans h) (he.trans_eq (hage h).symm),
      ← body_shiftTime d now _ raw btn door rfl]
    simp [shiftTime, State.setBoot, State.clearEvents, bootEnd, h]
  · rw [ht, ticked_run (hphase.trans h), shiftTime_clearEvents,
      body_shiftTime d now s.clearEvents raw btn door h]

/-- Settles O56: every phase commutes with a shift of the live timestamps and the clock. -/
theorem onlyTimeDifferencesMatter : Obligations.OnlyTimeDifferencesMatter := by
  unfold Obligations.OnlyTimeDifferencesMatter
  intro d raw btn door now s
  exact ⟨_, rfl, congrArg _ (ticked_shiftTime d raw btn door now s)⟩

end Sys2Proof.Machine
end

section
/-! What binary64 patterns say of the numbers they stand for (R9): a finite number's worth follows its magnitude
pattern, a NaN's pattern lies above infinity's. -/

namespace Sys2Proof.Binary64

/-! ### Classes as ranges of the magnitude pattern -/

theorem isNaN_iff (x : Binary64) : x.isNaN = true ↔ infMagnitude < x.magnitude := by
  have he := expField_eq x
  have hf := fracField_eq x
  have hlt : x.magnitude < 2 ^ 63 := Nat.mod_lt _ (by positivity)
  simp only [isNaN, Bool.and_eq_true, beq_iff_eq, bne_iff_ne]
  unfold infMagnitude
  omega

@[simp] theorem inf_isNaN (neg : Bool) : (inf neg).isNaN = false := by
  rw [Bool.eq_false_iff, ne_eq, isNaN_iff, inf_magnitude]
  exact lt_irrefl _

/-! ### The order of the comparisons -/

theorem rank_inf (neg : Bool) :
    (inf neg).rank = if neg then -(infMagnitude : Int) else infMagnitude := by
  rw [rank, inf_sign, inf_magnitude]

/-- The finite numbers are those whose place lies between the infinities. -/
theorem isFinite_iff_rank (x : Binary64) :
    x.isFinite = true ↔ -(infMagnitude : Int) < x.rank ∧ x.rank < infMagnitude := by
  rw [isFinite_iff, rank]
  split <;> omega

/-- The comparison `<` of two operands that are no NaN. -/
theorem lt_iff_rank {x y : Binary64} (hx : x.isNaN = false) (hy : y.isNaN = false) :
    x.lt y = true ↔ x.rank < y.rank := by
  simp [lt, hx, hy]

/-- The comparison `≤` of two operands that are no NaN. -/
theorem le_iff_rank {x y : Binary64} (hx : x.isNaN = false) (hy : y.isNaN = false) :
    x.le y = true ↔ x.rank ≤ y.rank := by
  simp [le, hx, hy]

theorem lt_of_isNaN {x y : Binary64} (h : x.isNaN = true ∨ y.isNaN = true) : x.lt y = false := by
  rcases h with h | h <;> simp [lt, h]

theorem le_of_isNaN {x y : Binary64} (h : x.isNaN = true ∨ y.isNaN = true) : x.le y = false := by
  rcases h with h | h <;> simp [le, h]

/-- What lies between two finite numbers is finite. -/
theorem isFinite_of_le_of_le {a x b : Binary64} (ha : a.isFinite = true) (hb : b.isFinite = true)
    (hax : a.le x = true) (hxb : x.le b = true) : x.isFinite = true := by
  simp only [le, Bool.and_eq_true, decide_eq_true_eq] at hax hxb
  rw [isFinite_iff_rank] at ha hb ⊢
  omega

/-! ### The worth of a pattern -/

theorem magnitudeUnits_zero : magnitudeUnits 0 = 0 := rfl

/-- Places in the order and worths compare alike, whatever the signs. -/
theorem toUnits_le_iff_rank (x y : Binary64) : x.toUnits ≤ y.toUnits ↔ x.rank ≤ y.rank := by
  have hxy := magnitudeUnits_le_iff (a := x.magnitude) (b := y.magnitude)
  have hyx := magnitudeUnits_le_iff (a := y.magnitude) (b := x.magnitude)
  have hx0 := magnitudeUnits_le_iff (a := x.magnitude) (b := 0)
  have hy0 := magnitudeUnits_le_iff (a := y.magnitude) (b := 0)
  rw [magnitudeUnits_zero] at hx0 hy0
  unfold toUnits rank
  rw [units_eq, units_eq]
  split <;> split <;> omega

theorem toUnits_lt_iff_rank (x y : Binary64) : x.toUnits < y.toUnits ↔ x.rank < y.rank := by
  rw [← not_le, ← not_le, toUnits_le_iff_rank]

/-- A whole number below 2^53 converts to a finite number of its value. -/
theorem ofNat_exact {n : Nat} (hn : n < 2 ^ 53) :
    (ofNat n).isFinite = true ∧ (ofNat n).toUnits = n * 2 ^ 1074 := by
  obtain ⟨m, hm, hinf⟩ := exists_magnitude hn le_rfl
  have hr : roundMagnitude (n * 2 ^ 1074) 1 = m := by
    rw [roundMagnitude_eq, ← hm, ← Nat.mul_one (magnitudeUnits m), unboundedMagnitude_units m one_pos]
    exact min_eq_left hinf.le
  have hmag : (ofNat n).magnitude = m := (round_magnitude ..).trans hr
  constructor
  · rwa [isFinite_iff, hmag]
  · rw [toUnits_of_not_sign (x := ofNat n) (round_sign ..), units_eq, hmag, hm, Nat.cast_mul, Nat.cast_pow]
    rfl

end Sys2Proof.Binary64

namespace Sys2Proof.Machine

/-- Settles O49: finite numbers compare as their places in the order, which compare as their worths; the
infinities have the two end places; a NaN fails both comparisons by definition. -/
theorem comparisonsCompareTheValues : Obligations.ComparisonsCompareTheValues := by
  unfold Obligations.ComparisonsCompareTheValues
  intro x y
  refine ⟨fun hx hy => ?_, fun hx => ?_, fun neg neg' => ?_, fun h => ?_⟩
  · have hx' := Binary64.not_isNaN_of_isFinite hx
    have hy' := Binary64.not_isNaN_of_isFinite hy
    exact ⟨(Binary64.lt_iff_rank hx' hy').trans (Binary64.toUnits_lt_iff_rank x y).symm,
      (Binary64.le_iff_rank hx' hy').trans (Binary64.toUnits_le_iff_rank x y).symm⟩
  · have hx' := Binary64.not_isNaN_of_isFinite hx
    obtain ⟨hlo, hhi⟩ := (Binary64.isFinite_iff_rank x).mp hx
    simp only [← Bool.not_eq_true, Binary64.lt_iff_rank, Binary64.le_iff_rank, hx', Binary64.inf_isNaN,
      Binary64.rank_inf, Bool.false_eq_true, if_true, if_false]
    omega
  · rw [Binary64.lt_iff_rank (Binary64.inf_isNaN _) (Binary64.inf_isNaN _),
      Binary64.le_iff_rank (Binary64.inf_isNaN _) (Binary64.inf_isNaN _), Binary64.rank_inf,
      Binary64.rank_inf]
    cases neg <;> cases neg' <;> decide
  · exact ⟨Binary64.lt_of_isNaN h, Binary64.le_of_isNaN h⟩

/-- Settles O50: the number is worth a pattern below infinity, and rounds to it. -/
theorem smallIntegersConvertExactly : Obligations.SmallIntegersConvertExactly := by
  unfold Obligations.SmallIntegersConvertExactly
  exact fun n hn => Binary64.ofNat_exact hn

/-- Settles O51, by evaluation of the nine rows. -/
theorem thresholdTemperaturesAreExact : Obligations.ThresholdTemperaturesAreExact := by
  unfold Obligations.ThresholdTemperaturesAreExact
  decide +kernel

end Sys2Proof.Machine
end

section
/-! The check of R7 in front of a step (R130). -/

namespace Sys2Proof

open Sys2Proof.Machine

theorem Binary64.isPositiveFinite_iff (x : Binary64) :
    x.isPositiveFinite = true ↔ Binary64.posZero.lt x = true ∧ x.isFinite = true := by
  rw [Binary64.isPositiveFinite, Bool.and_eq_true, and_comm]

/-- The check of a parameter set, constraint by constraint (R7); a limit between 190 and 212 is finite. -/
theorem Params.wellFormed_iff (p : Params) : p.wellFormed = true ↔
    1 ≤ p.nAvg ∧ p.nAvg ≤ 65535 ∧ 1 ≤ p.sensorFaultLimit ∧ p.sensorFaultLimit ≤ 65535 ∧
      2 ≤ p.adcMax ∧ p.adcMax ≤ 65536 ∧
      (Binary64.posZero.lt p.vcc = true ∧ p.vcc.isFinite = true) ∧
      (Binary64.posZero.lt p.rSeries = true ∧ p.rSeries.isFinite = true) ∧
      (p.slice6MinPower = 5 ∨ p.slice6MinPower = 6) ∧ p.reflowSub2LimitC.isFinite = true ∧
      (degC 190).le p.reflowSub2LimitC = true ∧ p.reflowSub2LimitC.le (degC 212) = true := by
  have hfin (h190 : (degC 190).le p.reflowSub2LimitC = true)
      (h212 : p.reflowSub2LimitC.le (degC 212) = true) : p.reflowSub2LimitC.isFinite = true :=
    Binary64.isFinite_of_le_of_le (by decide +kernel) (by decide +kernel) h190 h212
  unfold wellFormed
  rw [← degC_190, ← degC_212]
  simp only [Bool.and_eq_true, Bool.or_eq_true, decide_eq_true_eq, Binary64.isPositiveFinite_iff]
  tauto

/-- A step with a bundle issued checks the parameters and runs the decoded command (R7, R130). -/
theorem Machine.step_of_inbox {s : State} {b : Bundle} {rest : List Bundle} (h : s.inbox = b :: rest) :
    step s = if s.params.wellFormed then exec (decodeBundle b) (s.setInbox rest)
      else .refused .notAnInstance := by
  unfold step State.takeBundle
  rw [h]
  rfl

/-- Settles O10: the constraints are the check that `step` makes. -/
theorem Machine.parameterConstraintsGateTheStep : Obligations.ParameterConstraintsGateTheStep := by
  unfold Obligations.ParameterConstraintsGateTheStep
  intro s b rest hinbox
  have hiff := Params.wellFormed_iff s.params
  rw [step_of_inbox hinbox]
  simp only [and_assoc] at hiff
  dsimp only
  rw [← hiff]
  exact ⟨fun h => if_pos h, fun h => if_neg h⟩

end Sys2Proof
end

section
/-! Rounding is to nearest, ties to even, with infinity above (R9): first for the quotient rounded to an integer,
then for the magnitude patterns, then for the signed operations. Distances are integers, scaled by the divisor. -/

namespace Sys2Proof.Binary64

open Sys2Proof.Machine

/-! ### The rounded quotient -/

/-- Where a quotient lies halfway between two integers it is rounded to the even one. -/
theorem roundDiv_even_of_tie {n d : Nat} (hd : 0 < d)
    (h : 2 * |(roundDiv n d : Int) * d - n| = d) : roundDiv n d % 2 = 0 := by
  have hdm : ((n / d : Nat) : Int) * d + (n % d : Nat) = n := by
    rw [mul_comm]; exact_mod_cast Nat.div_add_mod n d
  have hr : n % d < d := Nat.mod_lt n hd
  revert h
  unfold roundDiv
  dsimp only
  split_ifs with hdown hup
  · intro h
    rw [show ((n / d : Nat) : Int) * d - n = -(n % d : Nat) by linarith, abs_neg, Nat.abs_cast] at h
    omega
  · intro h
    rw [Nat.cast_succ, show (((n / d : Nat) : Int) + 1) * d - n = ((d - n % d : Nat) : Int) by
      rw [Nat.cast_sub hr.le]; linarith, Nat.abs_cast] at h
    omega
  · intro _
    omega

/-- No integer is nearer to a quotient than its rounding, and where another is as near the rounding is even. -/
theorem roundDiv_nearest (n : Nat) {d : Nat} (hd : 0 < d) (j : Nat) :
    |(roundDiv n d : Int) * d - n| ≤ |(j : Int) * d - n| ∧
      (|(roundDiv n d : Int) * d - n| = |(j : Int) * d - n| → j ≠ roundDiv n d →
        roundDiv n d % 2 = 0) := by
  by_cases hj : j = roundDiv n d
  · subst hj
    exact ⟨le_rfl, fun _ h => absurd rfl h⟩
  · have herr : 2 * |(roundDiv n d : Int) * d - n| ≤ d := by
      have h := roundDiv_error (n := n) hd
      zify at h
      rw [← abs_two, ← abs_mul, abs_le]
      constructor <;> linarith
    have hgap : (d : Int) ≤ |(roundDiv n d : Int) * d - n| + |(j : Int) * d - n| := by
      have hone : 1 ≤ |(roundDiv n d : Int) - j| :=
        Int.one_le_abs (sub_ne_zero.mpr (by exact_mod_cast Ne.symm hj))
      calc (d : Int) ≤ |(roundDiv n d : Int) - j| * d := le_mul_of_one_le_left (by positivity) hone
        _ = |((roundDiv n d : Int) * d - n) - ((j : Int) * d - n)| := by
          rw [← Nat.abs_cast d, ← abs_mul, Nat.abs_cast]; congr 1; ring
        _ ≤ _ := abs_sub _ _
    exact ⟨by linarith, fun heq _ => roundDiv_even_of_tie hd (by linarith)⟩

/-! ### The rounded magnitude pattern -/

/-- How far a pattern's worth lies from `n / d`, times `d`. -/
def magnitudeError (n d m : Nat) : Int := |(magnitudeUnits m : Int) * d - n|

/-- A pattern is worth a multiple of any last place, or less than the numbers that have it. -/
theorem magnitudeUnits_multiple_or_small (k m : Nat) :
    (∃ j, magnitudeUnits m = j * 2 ^ k) ∨ (0 < k ∧ magnitudeUnits m < 2 ^ 52 * 2 ^ k) := by
  obtain ⟨k', sig, rfl, hlt, hk'⟩ := magnitude_scaled m
  rw [magnitudeUnits_scaled hlt.le hk']
  rcases Nat.lt_or_ge k' k with h | h
  · right
    refine ⟨by omega, ?_⟩
    calc sig * 2 ^ k' < 2 ^ 53 * 2 ^ k' := Nat.mul_lt_mul_of_pos_right hlt (by positivity)
      _ = 2 ^ 52 * 2 ^ (k' + 1) := by ring
      _ ≤ 2 ^ 52 * 2 ^ k := Nat.mul_le_mul_left _ (Nat.pow_le_pow_right (by omega) h)
  · left
    exact ⟨sig * 2 ^ (k' - k), by rw [mul_assoc, ← pow_add, Nat.sub_add_cancel h]⟩

theorem magnitudeUnits_injective : Function.Injective magnitudeUnits :=
  StrictMono.injective fun _ _ => magnitudeUnits_lt

/-- No pattern's worth is nearer to `n / d` than that of the rounded pattern, and where another's is as near the
rounded pattern is even. -/
theorem unboundedMagnitude_nearest (n : Nat) {d : Nat} (hd : 0 < d) (m : Nat) :
    magnitudeError n d (unboundedMagnitude n d) ≤ magnitudeError n d m ∧
      (magnitudeError n d (unboundedMagnitude n d) = magnitudeError n d m → m ≠ unboundedMagnitude n d →
        unboundedMagnitude n d % 2 = 0) := by
  obtain ⟨hhi, hlo⟩ := quotient_range n d
  have hM : unboundedMagnitude n d = (Nat.log2 (n / d) - 52) * 2 ^ 52 +
    roundDiv n (d * 2 ^ (Nat.log2 (n / d) - 52)) := rfl
  generalize Nat.log2 (n / d) - 52 = k at *
  have hD : 0 < d * 2 ^ k := by positivity
  generalize hR : roundDiv n (d * 2 ^ k) = R at *
  have hR53 : R ≤ 2 ^ 53 := by
    have := roundDiv_le_succ n (d * 2 ^ k)
    omega
  have hR52 : k = 0 ∨ 2 ^ 52 ≤ R := by
    have := div_le_roundDiv n (d * 2 ^ k)
    omega
  have hUM : magnitudeUnits (unboundedMagnitude n d) = R * 2 ^ k := by rw [hM, magnitudeUnits_scaled hR53 hR52]
  have heven : R % 2 = 0 → unboundedMagnitude n d % 2 = 0 := by omega
  have herr (j m : Nat) (h : magnitudeUnits m = j * 2 ^ k) :
      magnitudeError n d m = |(j : Int) * (d * 2 ^ k : Nat) - n| := by
    rw [magnitudeError, h]; congr 2; push_cast; ring
  rcases magnitudeUnits_multiple_or_small k m with ⟨j, hj⟩ | ⟨hk, hsmall⟩
  · obtain ⟨hle, htie⟩ := roundDiv_nearest n hD j
    rw [hR] at hle htie
    rw [herr _ _ hUM, herr _ _ hj]
    refine ⟨hle, fun heq hne => heven (htie heq fun hjR => hne (magnitudeUnits_injective ?_))⟩
    rw [hUM, hj, hjR]
  · have hbelow : 2 ^ 52 * (d * 2 ^ k) ≤ n :=
      (Nat.le_div_iff_mul_le hD).mp (hlo.resolve_left hk.ne')
    have hfar : magnitudeUnits m * d < 2 ^ 52 * (d * 2 ^ k) := by
      calc magnitudeUnits m * d < 2 ^ 52 * 2 ^ k * d := Nat.mul_lt_mul_of_pos_right hsmall hd
        _ = _ := by ring
    have hlt : magnitudeError n d (unboundedMagnitude n d) < magnitudeError n d m := by
      have hle := (roundDiv_nearest n hD (2 ^ 52)).1
      rw [hR] at hle
      rw [herr _ _ hUM, magnitudeError]
      refine hle.trans_lt ?_
      zify at hbelow hfar
      rw [abs_of_nonpos (by push_cast; linarith), abs_of_nonpos (by linarith)]
      push_cast
      linarith
    exact ⟨hlt.le, fun heq => absurd heq hlt.ne⟩

/-- The least magnitude that rounds to infinity lies halfway between the largest finite pattern and
infinity's. -/
def overflowMagnitude : Nat := (2 ^ 54 - 1) * 2 ^ 2044

theorem overflowMagnitude_cast : (overflowMagnitude : ℚ) = overflowUnits := by
  unfold overflowMagnitude overflowUnits
  rw [Nat.cast_mul, Nat.cast_pow, Nat.cast_sub (by decide), Nat.cast_pow]
  rfl

theorem overflowMagnitude_halfway :
    magnitudeUnits (infMagnitude - 1) + magnitudeUnits infMagnitude = 2 * overflowMagnitude := by
  have hmax : magnitudeUnits (2045 * 2 ^ 52 + (2 ^ 53 - 1)) = (2 ^ 53 - 1) * 2 ^ 2045 :=
    magnitudeUnits_scaled (by omega) (.inr (by omega))
  have hinf : magnitudeUnits (2045 * 2 ^ 52 + 2 ^ 53) = 2 ^ 53 * 2 ^ 2045 :=
    magnitudeUnits_scaled le_rfl (.inr (by omega))
  rw [show infMagnitude - 1 = 2045 * 2 ^ 52 + (2 ^ 53 - 1) from rfl,
    show infMagnitude = 2045 * 2 ^ 52 + 2 ^ 53 from rfl, hmax, hinf, overflowMagnitude, ← add_mul,
    pow_succ 2 2044]
  generalize (2 : Nat) ^ 2044 = c
  omega

/-- The rounded pattern reaches infinity's exactly from half a last place above the largest finite number: below
the halfway point the largest finite pattern is nearer, and at that point its odd fraction gives way. -/
theorem infMagnitude_le_unboundedMagnitude_iff (n : Nat) {d : Nat} (hd : 0 < d) :
    infMagnitude ≤ unboundedMagnitude n d ↔ overflowMagnitude * d ≤ n := by
  have hmax := (unboundedMagnitude_nearest n hd (infMagnitude - 1)).1
  obtain ⟨hinf, htie⟩ := unboundedMagnitude_nearest n hd infMagnitude
  generalize unboundedMagnitude n d = M at *
  unfold magnitudeError at hmax hinf htie
  have hhalf : (magnitudeUnits (infMagnitude - 1) : Int) * d + magnitudeUnits infMagnitude * d =
      2 * (overflowMagnitude * d) := by
    rw [← add_mul, ← mul_assoc]; exact_mod_cast congrArg (· * d) overflowMagnitude_halfway
  have hscale {a b : Nat} (h : a ≤ b) : (magnitudeUnits a : Int) * d ≤ magnitudeUnits b * d := by
    exact_mod_cast Nat.mul_le_mul_right d (magnitudeUnits_le_iff.mpr h)
  have hlt : (magnitudeUnits (infMagnitude - 1) : Int) * d < magnitudeUnits infMagnitude * d := by
    exact_mod_cast Nat.mul_lt_mul_of_pos_right (magnitudeUnits_lt (by decide)) hd
  zify
  constructor
  · intro hM
    have hM' := hscale (Int.ofNat_le.mp hM)
    by_contra hn
    rw [abs_of_nonneg (by linarith)] at hmax
    rcases abs_cases ((magnitudeUnits (infMagnitude - 1) : Int) * d - n) with ⟨h, _⟩ | ⟨h, _⟩ <;> linarith
  · intro hn
    by_contra hM
    have hM' : M ≤ infMagnitude - 1 := Nat.le_pred_of_lt (by exact_mod_cast not_le.mp hM)
    have hinf' : |(magnitudeUnits infMagnitude : Int) * d - n| ≤
        n - magnitudeUnits (infMagnitude - 1) * d := abs_le.mpr ⟨by linarith, by linarith⟩
    rw [abs_of_nonpos (by linarith [hscale hM'])] at hinf htie
    have hworth : (magnitudeUnits M : Int) * d = magnitudeUnits (infMagnitude - 1) * d :=
      le_antisymm (hscale hM') (by linarith)
    have hMmax : M = infMagnitude - 1 :=
      magnitudeUnits_injective (Nat.eq_of_mul_eq_mul_right hd (by exact_mod_cast hworth))
    have heven := htie (by linarith) (by unfold infMagnitude at *; omega)
    rw [hMmax] at heven
    exact absurd heven (by decide)

/-! ### Signed numbers -/

/-- A magnitude with a sign. -/
def applySign (neg : Bool) (k : Nat) : Int := if neg then -(k : Int) else k

theorem toUnits_eq_applySign (x : Binary64) : x.toUnits = applySign x.sign x.units := rfl

@[simp] theorem abs_applySign (neg : Bool) (k : Nat) : |applySign neg k| = k := by
  cases neg <;> simp [applySign]

theorem applySign_mul (a b : Bool) (k l : Nat) :
    applySign a k * applySign b l = applySign (a != b) (k * l) := by
  cases a <;> cases b <;> simp [applySign]

theorem applySign_natAbs (s : Int) : applySign (decide (s < 0)) s.natAbs = s := by
  unfold applySign
  split_ifs with h
  · rw [decide_eq_true_eq] at h; omega
  · rw [decide_eq_true_eq] at h; omega

/-- A whole number's distance from the signed quotient, times the divisor. -/
theorem abs_sub_mul {v : ℚ} {d : Nat} {s : Int} (hv : v * d = s) (z : Int) :
    |(z : ℚ) - v| * d = ((|z * d - s| : Int) : ℚ) := by
  calc |(z : ℚ) - v| * d = |((z : ℚ) - v) * d| := by rw [abs_mul, Nat.abs_cast]
    _ = _ := by rw [sub_mul, hv]; push_cast; rfl

theorem applySign_error (neg : Bool) (n d m : Nat) :
    |applySign neg (magnitudeUnits m) * d - applySign neg n| = magnitudeError n d m := by
  unfold magnitudeError applySign
  cases neg with
  | false => rfl
  | true =>
    simp only [if_true]
    rw [← abs_neg]
    congr 1
    ring

/-- No number is nearer to a signed quotient than some pattern of the quotient's sign: its own, or where the
signs differ that of zero. -/
theorem exists_pattern_no_farther (neg : Bool) (n : Nat) {d : Nat} (hd : 0 < d) (z : Binary64) :
    ∃ m, magnitudeError n d m ≤ |z.toUnits * d - applySign neg n| ∧
      (magnitudeError n d m = |z.toUnits * d - applySign neg n| →
        z.toUnits = applySign neg (magnitudeUnits m)) := by
  by_cases hs : z.sign = neg
  · subst hs
    refine ⟨z.magnitude, ?_, fun _ => by rw [toUnits_eq_applySign, units_eq]⟩
    rw [toUnits_eq_applySign, units_eq, applySign_error]
  · have hworth : 0 ≤ (magnitudeUnits z.magnitude : Int) * d := by positivity
    have hdist : |z.toUnits * d - applySign neg n| =
        magnitudeUnits z.magnitude * d + n := by
      rw [toUnits_eq_applySign, units_eq, Bool.eq_not.mpr hs, applySign, applySign]
      cases neg with
      | false =>
        simp only [Bool.not_false, if_true, Bool.false_eq_true, if_false]
        rw [abs_of_nonpos (by linarith)]
        ring
      | true =>
        simp only [Bool.not_true, if_true, Bool.false_eq_true, if_false]
        rw [abs_of_nonneg (by linarith)]
        ring
    have hzero : magnitudeError n d 0 = n := by simp [magnitudeError, magnitudeUnits_zero]
    rw [hdist]
    refine ⟨0, by rw [hzero]; linarith, fun h => ?_⟩
    rw [hzero] at h
    have hz : magnitudeUnits z.magnitude = 0 := by
      have : (magnitudeUnits z.magnitude : Int) * d = 0 := by linarith
      exact (Nat.mul_eq_zero.mp (by exact_mod_cast this)).resolve_right hd.ne'
    simp [toUnits_eq_applySign, units_eq, applySign, hz, magnitudeUnits_zero]

section
variable {v : ℚ} {neg : Bool} {n d : Nat} (hd : 0 < d) (hv : v * d = (applySign neg n : ℚ))
include hd hv

theorem overflowUnits_le_abs_iff : overflowUnits ≤ |v| ↔ infMagnitude ≤ unboundedMagnitude n d := by
  have habs : |v| * d = n := by
    have h := abs_sub_mul hv 0
    rw [Int.cast_zero, zero_sub, abs_neg] at h
    rw [h]
    simp
  rw [infMagnitude_le_unboundedMagnitude_iff n hd, ← mul_le_mul_iff_left₀ (Nat.cast_pos.mpr hd), habs,
    ← overflowMagnitude_cast]
  exact_mod_cast Iff.rfl

/-- A pattern cut at infinity is the infinity of the value's sign. -/
theorem round_of_overflow (hM : infMagnitude ≤ unboundedMagnitude n d) :
    round neg n d = .inf (decide (v < 0)) := by
  have hd' : (0 : ℚ) < d := Nat.cast_pos.mpr hd
  have hpos : (0 : ℚ) < n := by
    have h : 0 < overflowMagnitude * d := Nat.mul_pos (by unfold overflowMagnitude; positivity) hd
    exact_mod_cast h.trans_le ((infMagnitude_le_unboundedMagnitude_iff n hd).mp hM)
  have hneg : neg = decide (v < 0) := by
    cases neg with
    | false =>
      have h : 0 < v * d := hv ▸ hpos
      exact (decide_eq_false (not_lt.mpr (pos_of_mul_pos_left h hd'.le).le)).symm
    | true =>
      have h : v * d < 0 := by rw [hv]; simpa [applySign] using hpos
      exact (decide_eq_true (neg_of_mul_neg_left h hd'.le)).symm
  rw [← hneg, round, roundMagnitude_eq, min_eq_right hM]
  rfl

/-- A pattern below infinity's is the nearest number, ties to even. -/
theorem round_nearest (hM : unboundedMagnitude n d < infMagnitude) (z : Binary64) :
    |((round neg n d).toUnits : ℚ) - v| ≤ |(z.toUnits : ℚ) - v| ∧
      (|((round neg n d).toUnits : ℚ) - v| = |(z.toUnits : ℚ) - v| →
        z.toUnits ≠ (round neg n d).toUnits → (round neg n d).fracField % 2 = 0) := by
  have hd' : (0 : ℚ) < d := Nat.cast_pos.mpr hd
  have hmag : (round neg n d).magnitude = unboundedMagnitude n d := by
    rw [round_magnitude, roundMagnitude_eq, min_eq_left hM.le]
  have hr : (round neg n d).toUnits = applySign neg (magnitudeUnits (unboundedMagnitude n d)) := by
    rw [toUnits_eq_applySign, units_eq, round_sign, hmag]
  have herr : |((round neg n d).toUnits : ℚ) - v| * d =
      (magnitudeError n d (unboundedMagnitude n d) : Int) := by
    rw [abs_sub_mul hv, hr, applySign_error]
  obtain ⟨m, hle, hexact⟩ := exists_pattern_no_farther neg n hd z
  obtain ⟨hnear, htie⟩ := unboundedMagnitude_nearest n hd m
  constructor
  · rw [← mul_le_mul_iff_left₀ hd', herr, abs_sub_mul hv]
    exact_mod_cast hnear.trans hle
  · intro heq hne
    rw [← mul_left_inj' hd'.ne', herr, abs_sub_mul hv] at heq
    have heq' := Int.cast_injective heq
    have hother : m ≠ unboundedMagnitude n d := fun hm =>
      hne ((hexact (le_antisymm hle (heq'.symm.trans_le hnear))).trans (by rw [hr, hm]))
    have heven := htie (le_antisymm hnear (hle.trans_eq heq'.symm)) hother
    rw [fracField_eq, hmag]
    omega

/-- Rounding a signed quotient once gives the nearest number, ties to even, or the infinity of its sign. -/
theorem isRounded_round : IsRounded v (round neg n d) := by
  have hover := overflowUnits_le_abs_iff hd hv
  rcases Nat.lt_or_ge (unboundedMagnitude n d) infMagnitude with hM | hM
  · have hfin : (round neg n d).isFinite = true := by
      rw [isFinite_iff, round_magnitude, roundMagnitude_eq, min_eq_left hM.le]
      exact hM
    exact .inl ⟨lt_of_not_ge fun h => hM.not_ge (hover.mp h), hfin, fun z _ => round_nearest hd hv hM z⟩
  · exact .inr ⟨hover.mpr hM, round_of_overflow hd hv hM⟩

end

/-! ### The operations -/

theorem isRounded_zero (neg : Bool) : IsRounded 0 (zero neg) := by
  have hz : zero neg = round neg 0 1 := rfl
  rw [hz]
  exact isRounded_round one_pos (by cases neg <;> simp [applySign])

theorem isRounded_addFinite (x y : Binary64) :
    IsRounded (x.toUnits + y.toUnits) (x.addFinite y) := by
  rw [← Int.cast_add]
  unfold addFinite
  dsimp only
  split_ifs with h
  · rw [h, Int.cast_zero]
    exact isRounded_zero _
  · exact isRounded_round one_pos (by rw [applySign_natAbs, Nat.cast_one, mul_one])

section
variable {x y : Binary64}

theorem isFinite_neg (hy : y.isFinite = true) : y.neg.isFinite = true := by
  rw [isFinite_iff, neg_magnitude]
  exact (isFinite_iff y).mp hy

theorem toUnits_neg (y : Binary64) : y.neg.toUnits = -y.toUnits := by
  rw [toUnits_eq_applySign, toUnits_eq_applySign, units_eq, units_eq, neg_magnitude, neg_sign]
  cases y.sign <;> simp [applySign]

/-- The sign of a quotient, undone by the divisor's sign. -/
theorem applySign_mul_toUnits (x y : Binary64) (k : Nat) :
    applySign (x.sign != y.sign) (x.units * k) * y.toUnits = x.toUnits * k * y.units := by
  rw [toUnits_eq_applySign, toUnits_eq_applySign, applySign_mul]
  cases x.sign <;> cases y.sign <;> simp [applySign]

variable (hx : x.isFinite = true) (hy : y.isFinite = true)
include hx hy

theorem isRounded_add : IsRounded (x.toUnits + y.toUnits) (x.add y) := by
  rw [add, addAs_of_finite hx hy]
  exact isRounded_addFinite x y

theorem isRounded_sub : IsRounded (x.toUnits - y.toUnits) (x.sub y) := by
  rw [sub, addAs_of_finite hx (isFinite_neg hy), sub_eq_add_neg, ← Int.cast_neg, ← toUnits_neg]
  exact isRounded_addFinite x y.neg

theorem isRounded_mul : IsRounded (x.toUnits * y.toUnits / 2 ^ 1074) (x.mul y) := by
  rw [mul_of_finite hx hy]
  refine isRounded_round (by positivity) ?_
  rw [← applySign_mul, Nat.cast_pow, Nat.cast_ofNat, div_mul_cancel₀ _ (by positivity), Int.cast_mul]
  rfl

theorem isRounded_div (h0 : y.toUnits ≠ 0) : IsRounded (x.toUnits * 2 ^ 1074 / y.toUnits) (x.div y) := by
  have hunits : y.units ≠ 0 := fun h => h0 (by simp [toUnits_eq_applySign, applySign, h])
  have hmag : y.magnitude ≠ 0 := fun h => hunits (by rw [units_eq, h, magnitudeUnits_zero])
  rw [div_of_finite hx hy hmag]
  refine isRounded_round (Nat.pos_of_ne_zero hunits) ?_
  rw [div_mul_eq_mul_div, div_eq_iff (by exact_mod_cast h0), ← Int.cast_mul, applySign_mul_toUnits, Int.cast_mul,
    Int.cast_mul, Int.cast_natCast, Int.cast_natCast, Nat.cast_pow, Nat.cast_ofNat]

end

end Sys2Proof.Binary64

namespace Sys2Proof.Machine

/-- Settles O48: each operation rounds the exact result of its operands once. -/
theorem arithmeticRoundsToNearestEven : Obligations.ArithmeticRoundsToNearestEven := by
  unfold Obligations.ArithmeticRoundsToNearestEven
  exact fun x y hx hy => ⟨Binary64.isRounded_add hx hy, Binary64.isRounded_sub hx hy,
    Binary64.isRounded_mul hx hy, Binary64.isRounded_div hx hy⟩

end Sys2Proof.Machine
end

section
/-! A rounded number lies between any two numbers of the format that its exact value lies between (R9). -/

namespace Sys2Proof.Binary64

/-- Where the exact value lies between two finite patterns' worths, so does the rounded one. -/
theorem round_between {neg : Bool} {lo hi n d : Nat} (hd : 0 < d) (hhi : hi < infMagnitude)
    (hlo : magnitudeUnits lo * d ≤ n) (hn : n ≤ magnitudeUnits hi * d) :
    (round neg n d).isFinite = true ∧ magnitudeUnits lo ≤ (round neg n d).units ∧
      (round neg n d).units ≤ magnitudeUnits hi := by
  have hlow : lo ≤ unboundedMagnitude n d := by
    rw [← unboundedMagnitude_units lo hd]
    exact unboundedMagnitude_mono hd hd (Nat.mul_le_mul_right d hlo)
  have hhigh : unboundedMagnitude n d ≤ hi := by
    rw [← unboundedMagnitude_units hi hd]
    exact unboundedMagnitude_mono hd hd (Nat.mul_le_mul_right d hn)
  have hmag : (round neg n d).magnitude = unboundedMagnitude n d := by
    rw [round_magnitude, roundMagnitude_eq, min_eq_left (by omega)]
  rw [isFinite_iff, units_eq, hmag]
  exact ⟨by omega, magnitudeUnits_le_iff.mpr hlow, magnitudeUnits_le_iff.mpr hhigh⟩

section
variable {x y : Binary64} (hx : x.isFinite = true) (hy : y.isFinite = true)
include hx hy

theorem lt_iff_toUnits : x.lt y = true ↔ x.toUnits < y.toUnits :=
  (lt_iff_rank (not_isNaN_of_isFinite hx) (not_isNaN_of_isFinite hy)).trans (toUnits_lt_iff_rank x y).symm

theorem le_iff_toUnits : x.le y = true ↔ x.toUnits ≤ y.toUnits :=
  (le_iff_rank (not_isNaN_of_isFinite hx) (not_isNaN_of_isFinite hy)).trans (toUnits_le_iff_rank x y).symm

/-- A sum of numbers without the sign bit, one of them not zero, is the rounded sum of their worths. -/
theorem add_of_not_sign (hxs : x.sign = false) (hys : y.sign = false) (h : 0 < y.units) :
    x.add y = round false (x.units + y.units) 1 := by
  have hs : x.toUnits + y.toUnits = ((x.units + y.units : Nat) : Int) := by
    rw [toUnits_of_not_sign hxs, toUnits_of_not_sign hys, Nat.cast_add]
  rw [add, addAs_of_finite hx hy, addFinite, hs, Int.natAbs_natCast, if_neg (by omega),
    decide_eq_false (by omega)]

end

/-- Division of a number without the sign bit by a small positive integer rounds the quotient of their worths. -/
theorem div_ofNat {x : Binary64} {n : Nat} (hx : x.isFinite = true) (hs : x.sign = false) (h0 : 0 < n)
    (hn : n < 2 ^ 53) : x.div (.ofNat n) = round false (x.units * 2 ^ 1074) (n * 2 ^ 1074) := by
  obtain ⟨hfin, hworth⟩ := ofNat_exact hn
  have hsign : (ofNat n).sign = false := round_sign ..
  rw [toUnits_of_not_sign hsign] at hworth
  have hunits : (ofNat n).units = n * 2 ^ 1074 :=
    Nat.cast_injective (R := Int) (hworth.trans (by rw [Nat.cast_mul, Nat.cast_pow]; rfl))
  have hne : (ofNat n).magnitude ≠ 0 := fun hmag => by
    rw [units_eq, hmag, magnitudeUnits_zero] at hunits
    exact (Nat.mul_pos h0 (by positivity)).ne hunits
  rw [div_of_finite hx hfin hne, hs, hsign, hunits]
  rfl

theorem posZero_toUnits : posZero.toUnits = 0 := by decide

/-- A finite number in (0, b], by its worth. -/
def PositiveUpTo (x b : Binary64) : Prop :=
  x.isFinite = true ∧ x.sign = false ∧ 0 < x.units ∧ x.units ≤ b.units

/-- The comparisons place a number in (0, b], for a finite b without the sign bit. -/
theorem positiveUpTo_iff {x b : Binary64} (hb : b.isFinite = true) (hbs : b.sign = false) :
    x.PositiveUpTo b ↔ posZero.lt x = true ∧ x.le b = true := by
  have h0 : posZero.isFinite = true := by decide
  constructor
  · rintro ⟨hx, hxs, hpos, hle⟩
    rw [lt_iff_toUnits h0 hx, le_iff_toUnits hx hb, posZero_toUnits, toUnits_of_not_sign hxs,
      toUnits_of_not_sign hbs]
    exact ⟨by omega, by omega⟩
  · rintro ⟨hlt, hle⟩
    have hx := isFinite_of_le_of_le h0 hb (le_of_lt hlt) hle
    rw [lt_iff_toUnits h0 hx, posZero_toUnits] at hlt
    rw [le_iff_toUnits hx hb, toUnits_of_not_sign hbs] at hle
    cases hs : x.sign with
    | true =>
      rw [toUnits_of_sign hs] at hlt
      omega
    | false =>
      rw [toUnits_of_not_sign hs] at hlt hle
      exact ⟨hx, hs, by omega, by omega⟩

end Sys2Proof.Binary64
end

section
/-! The invariant (R57): each phase of TICK keeps the part that speaks of the registers it writes, and every
command keeps the whole. -/

namespace Sys2Proof.Machine

/-! ### The window (R154, R155, R158) -/

theorem tMaxK_finite : tMaxK.isFinite = true := by decide

theorem tMaxK_sign : tMaxK.sign = false := by decide

/-- `T_MAX_K` is a million, in units of 2^-1074. -/
theorem tMaxK_units : tMaxK.units = 1000000 * 2 ^ 1074 := by decide +kernel

/-- A valid sample lies in (0, `T_MAX_K`] (R153). -/
theorem sampleGuard_ok_positive {p : Params} {raw : AdcCode} {t : Binary64}
    (h : sampleGuard p raw = .ok t) : t.PositiveUpTo tMaxK := by
  obtain ⟨-, -, hpos, hmax, rfl⟩ := sampleGuard_ok_iff.mp h
  exact (Binary64.positiveUpTo_iff tMaxK_finite tMaxK_sign).mpr ⟨hpos, Binary64.le_of_lt hmax⟩

/-- The bounds on the sum of a window that may be full: `WindowInv` without the bound on the count. -/
structure SumInv (e : Estimator) : Prop where
  finite : e.acc.isFinite = true
  sign : e.acc.sign = false
  lower : e.cnt.toNat ≤ e.acc.units
  upper : e.acc.units ≤ e.cnt.toNat * tMaxK.units

theorem windowInv_iff {p : Params} {e : Estimator} :
    WindowInv p e ↔ e.cnt.toNat < p.nAvg ∧ SumInv e :=
  ⟨fun h => ⟨h.cnt_lt, h.acc_finite, h.acc_sign, h.acc_lower, h.acc_upper⟩,
    fun ⟨hcnt, h⟩ => ⟨hcnt, h.finite, h.sign, h.lower, h.upper⟩⟩

/-- An empty window. -/
theorem windowInv_of_empty {p : Params} {e : Estimator} (hp : p.wellFormed = true) (hacc : e.acc = .posZero)
    (hcnt : e.cnt = 0) : WindowInv p e := by
  have hn := Params.nAvg_range hp
  rw [windowInv_iff, hcnt]
  exact ⟨hn.1, by rw [hacc]; rfl, by rw [hacc]; rfl, by rw [hcnt]; exact Nat.zero_le _,
    by rw [hacc]; exact Nat.zero_le _⟩

section
variable {p : Params} {t : Binary64} {e : Estimator} (hp : p.wellFormed = true) (he : WindowInv p e)
include hp he

/-- In a window in progress the count does not wrap (R140). -/
theorem accumulate_cnt : (accumulate t e).cnt.toNat = e.cnt.toNat + 1 := by
  have hn := Params.nAvg_range hp
  have hcnt := he.cnt_lt
  change (e.cnt + 1).toNat = _
  exact BitVec.toNat_add_of_lt (by change _ + 1 < _; omega)

/-- A valid sample keeps the sum between one unit and `T_MAX_K` for each sample: both bounds are numbers of the
format, so rounding does not cross them (R158). -/
theorem accumulate_sumInv (ht : t.PositiveUpTo tMaxK) : SumInv (accumulate t e) := by
  obtain ⟨hfin, hsign, hpos, hmax⟩ := ht
  have hn := Params.nAvg_range hp
  obtain ⟨hcnt, hsum⟩ := windowInv_iff.mp he
  have hacc : (accumulate t e).acc = .round false (e.acc.units + t.units) 1 :=
    Binary64.add_of_not_sign hsum.finite hfin hsum.sign hsign hpos
  obtain ⟨lo, hlo, -⟩ := Binary64.exists_magnitude (n := e.cnt.toNat + 1) (j := 0) (by omega) (by omega)
  obtain ⟨hi, hhi, hhi_inf⟩ :=
    Binary64.exists_magnitude (n := (e.cnt.toNat + 1) * 1000000) (j := 1074) (by omega) le_rfl
  rw [pow_zero, mul_one] at hlo
  rw [mul_assoc, ← tMaxK_units] at hhi
  have hbounds := Binary64.round_between (neg := false) (n := e.acc.units + t.units) one_pos hhi_inf
    (by rw [hlo, mul_one]; exact Nat.add_le_add hsum.lower hpos)
    (by rw [hhi, mul_one, Nat.succ_mul]; exact Nat.add_le_add hsum.upper hmax)
  rw [← hacc, hlo, hhi, ← accumulate_cnt hp he (t := t)] at hbounds
  obtain ⟨hfinite, hlower, hupper⟩ := hbounds
  exact ⟨hfinite, by rw [hacc, Binary64.round_sign], hlower, hupper⟩

end

/-- The mean of a full window lies in (0, `T_MAX_K`] (R57 item 6, R158). -/
theorem windowMean_bounds {p : Params} {e : Estimator} (hp : p.wellFormed = true) (he : SumInv e)
    (hfull : e.cnt.toNat = p.nAvg) :
    (windowMean p e).isFinite = true ∧ Binary64.posZero.lt (windowMean p e) = true ∧
      (windowMean p e).le tMaxK = true := by
  have hn := Params.nAvg_range hp
  have hmean : windowMean p e = .round false (e.acc.units * 2 ^ 1074) (p.nAvg * 2 ^ 1074) :=
    Binary64.div_ofNat he.finite he.sign hn.1 (by omega)
  have hbounds := Binary64.round_between (neg := false) (lo := 1) (hi := tMaxK.magnitude)
    (n := e.acc.units * 2 ^ 1074) (d := p.nAvg * 2 ^ 1074) (Nat.mul_pos hn.1 (by positivity))
    ((Binary64.isFinite_iff _).mp tMaxK_finite)
    (by
      rw [show Binary64.magnitudeUnits 1 = 1 from rfl, one_mul, ← hfull]
      exact Nat.mul_le_mul_right _ he.lower)
    (by
      rw [← Binary64.units_eq, ← mul_assoc, mul_comm tMaxK.units, ← hfull]
      exact Nat.mul_le_mul_right _ he.upper)
  rw [← hmean, ← Binary64.units_eq] at hbounds
  obtain ⟨hfin, hpos, hmax⟩ := hbounds
  exact ⟨hfin, (Binary64.positiveUpTo_iff tMaxK_finite tMaxK_sign).mp
    ⟨hfin, by rw [hmean, Binary64.round_sign], hpos, hmax⟩⟩

/-! ### ESTIMATE (R150 to R157) -/

/-- The part of the invariant that speaks of the Temperature Estimator. -/
structure EstimatorInv (p : Params) (e : Estimator) : Prop where
  window : WindowInv p e
  published : PublishedInv e
  fault : FaultInv p e

theorem estimatorInv_reset {p : Params} (hp : p.wellFormed = true) : EstimatorInv p .reset where
  window := windowInv_of_empty hp rfl rfl
  published := ⟨fun _ => rfl, fun h => absurd h Bool.false_ne_true⟩
  fault := ⟨Nat.zero_le _, fun _ => (Params.sensorFaultLimit_range hp).1⟩

/-- An invalid sample is counted up to the limit, and reaching it latches the fault (R156, R157). -/
theorem countInvalid_faultInv {p : Params} (hp : p.wellFormed = true) (e : Estimator) :
    FaultInv p (countInvalid p e) := by
  have hlimit := Params.sensorFaultLimit_range hp
  have hbad : (countInvalid p e).badCnt.toNat = min (e.badCnt.toNat + 1) p.sensorFaultLimit :=
    (BitVec.toNat_ofNat ..).trans (Nat.mod_eq_of_lt (by omega))
  refine ⟨by omega, fun h => ?_⟩
  obtain ⟨-, hlt⟩ := Bool.or_eq_false_iff.mp h
  exact Nat.not_le.mp (of_decide_eq_false hlt)

section
variable {p : Params} {e : Estimator} (hp : p.wellFormed = true) (he : EstimatorInv p e)
include hp he

/-- A valid sample keeps the invariant, in a window left open as in one published. -/
theorem acceptedEstimator_inv {t : Binary64} (ht : t.PositiveUpTo tMaxK) :
    EstimatorInv p (acceptedEstimator p t e) := by
  have hsum := accumulate_sumInv hp he.window ht
  have hcnt := accumulate_cnt hp he.window (t := t)
  have hlt := he.window.cnt_lt
  have hfault : FaultInv p (accumulate t e) :=
    ⟨Nat.zero_le _, fun _ => (Params.sensorFaultLimit_range hp).1⟩
  by_cases hfull : (accumulate t e).cnt.toNat = p.nAvg
  · rw [acceptedEstimator_of_full hfull]
    exact ⟨windowInv_of_empty hp rfl rfl,
      ⟨fun h => absurd h.symm Bool.false_ne_true, fun _ => windowMean_bounds hp hsum hfull⟩,
      ⟨hfault.bad_le, hfault.bad_lt⟩⟩
  · rw [acceptedEstimator_of_open hfull]
    exact ⟨windowInv_iff.mpr ⟨by omega, hsum⟩, ⟨he.published.before, he.published.after⟩, hfault⟩

theorem countInvalid_inv (code : SensorFault) :
    EstimatorInv p (countInvalid p { e with sampleStatus := .fault code }) where
  window :=
    { cnt_lt := he.window.cnt_lt, acc_finite := he.window.acc_finite, acc_sign := he.window.acc_sign
      acc_lower := he.window.acc_lower, acc_upper := he.window.acc_upper }
  published := ⟨he.published.before, he.published.after⟩
  fault := countInvalid_faultInv hp _

end

section
variable (raw : AdcCode) (s : State)

theorem estimate_inv (hp : s.params.wellFormed = true) (he : EstimatorInv s.params s.est) :
    EstimatorInv s.params (estimate raw s).est := by
  cases hg : sampleGuard s.params raw with
  | ok t =>
    rw [(estimate_of_valid raw s hg).1]
    exact acceptedEstimator_inv hp he (sampleGuard_ok_positive hg)
  | error code =>
    rw [(estimate_of_invalid raw s hg).1]
    exact countInvalid_inv hp he code

/-- No sample takes the published temperature back: `temp_valid` is cleared by RESET alone. -/
theorem estimate_tempValid (h : (estimate raw s).est.tempValid = false) : s.est.tempValid = false := by
  cases hg : sampleGuard s.params raw with
  | ok t =>
    rw [(estimate_of_valid raw s hg).1] at h
    by_cases hfull : (accumulate t s.est).cnt.toNat = s.params.nAvg
    · rw [acceptedEstimator_of_full hfull] at h
      exact absurd h.symm Bool.false_ne_true
    · rwa [acceptedEstimator_of_open hfull] at h
  | error code => rwa [(estimate_of_invalid raw s hg).1] at h

/-- ESTIMATE emits at most one event (R134). -/
theorem estimate_events_length : (estimate raw s).events.length ≤ s.events.length + 1 := by
  cases hg : sampleGuard s.params raw with
  | ok t =>
    rw [(estimate_of_valid raw s hg).2]
    split <;> simp
  | error code => simp [(estimate_of_invalid raw s hg).2]

end

/-! ### CONTROL (R180 to R200) -/

/-- The part of the controller's invariant that does not speak of the estimator. -/
structure StageInv (c : StageController) : Prop where
  idle : c.stage = .off ∨ c.stage = .hold ∨ c.stage = .cool →
    c.substage = 0 ∧ c.topPower = 0 ∧ c.botPower = 0
  alarm_enabled : c.record.doorAlarmEn = decide (c.stage = .cool)
  door_valid : c.record.doorOpenValid = decide (c.stage = .cool)
  no_run : c.stage = .off ∨ c.stage = .hold → c.record = .cleared

theorem ControllerInv.stageInv {e : Estimator} {c : StageController} (h : ControllerInv e c) : StageInv c :=
  ⟨h.idle, h.alarm_enabled, h.door_valid, h.no_run⟩

section
variable {c : StageController}

/-- In Off and Hold: outputs 0 and nothing recorded. -/
theorem stageInv_iff_of_isNegative (h : c.stage = .off ∨ c.stage = .hold) :
    StageInv c ↔ (c.substage = 0 ∧ c.topPower = 0 ∧ c.botPower = 0) ∧ c.record = .cleared := by
  have hcool : c.stage ≠ .cool := by rcases h with h | h <;> simp [h]
  constructor
  · exact fun hc => ⟨hc.idle (h.imp_right .inl), hc.no_run h⟩
  · rintro ⟨hout, hrec⟩
    exact ⟨fun _ => hout, by simp [hrec, hcool, RunRecord.cleared],
      by simp [hrec, hcool, RunRecord.cleared], fun _ => hrec⟩

/-- In the heating stages: no door alarm. -/
theorem stageInv_iff_of_heating (h : c.stage = .preheat ∨ c.stage = .soak ∨ c.stage = .reflow) :
    StageInv c ↔ c.record.doorAlarmEn = false ∧ c.record.doorOpenValid = false := by
  have hcool : c.stage ≠ .cool := by rcases h with h | h | h <;> simp [h]
  have hidle : ¬(c.stage = .off ∨ c.stage = .hold) := by rcases h with h | h | h <;> simp [h]
  rw [← decide_eq_false hcool]
  exact ⟨fun hc => ⟨hc.alarm_enabled, hc.door_valid⟩, fun ⟨halarm, hdoor⟩ =>
    ⟨fun hs => by tauto, halarm, hdoor, fun hs => absurd hs hidle⟩⟩

/-- In a run the record may change but for the door's enable and valid flags. -/
theorem StageInv.withRecord {r : RunRecord} (h : StageInv c) (hs : ¬(c.stage = .off ∨ c.stage = .hold))
    (halarm : r.doorAlarmEn = c.record.doorAlarmEn) (hdoor : r.doorOpenValid = c.record.doorOpenValid) :
    StageInv { c with record := r } :=
  ⟨h.idle, halarm.trans h.alarm_enabled, hdoor.trans h.door_valid, fun hs' => absurd hs' hs⟩

theorem StageInv.withPress (h : StageInv c) (ms : Millis) : StageInv (c.withPress ms) :=
  ⟨h.idle, h.alarm_enabled, h.door_valid, h.no_run⟩

theorem StageInv.outputsOff (h : StageInv c) : StageInv (outputsOff c) :=
  ⟨fun _ => ⟨rfl, rfl, rfl⟩, h.alarm_enabled, h.door_valid, h.no_run⟩

/-- The override of a latched fault only turns powers off (R200). -/
theorem StageInv.safetyOverride (h : StageInv c) (b : Bool) : StageInv (safetyOverride b c) := by
  cases b with
  | false => exact h
  | true => exact ⟨fun hs => ⟨(h.idle hs).1, rfl, rfl⟩, h.alarm_enabled, h.door_valid, h.no_run⟩

theorem startRun_stageInv (now : Millis) : StageInv (startRun now c) :=
  (stageInv_iff_of_heating (.inl rfl)).mpr ⟨rfl, rfl⟩

/-- The button starts a run with a cleared record, or stays among the stages without one (R181 to R184). -/
theorem buttonPart_stageInv {e : Estimator} {btn : Bool} {now : Millis} (h : StageInv c) :
    StageInv (buttonPart e btn now c) := by
  by_cases hs : c.stage = .off ∨ c.stage = .hold
  · have hidle := (stageInv_iff_of_isNegative hs).mp h
    cases btn with
    | false =>
      rw [buttonPart_released, buttonReleased, if_pos hs]
      exact (stageInv_iff_of_isNegative (.inl rfl)).mpr hidle
    | true =>
      rcases hs with hoff | hhold
      · rw [buttonPart_off hoff]
        exact (stageInv_iff_of_isNegative (.inr rfl)).mpr hidle
      · cases hstart : startCondition e c.pressStartMs now with
        | true => rw [buttonPart_start hhold hstart]; exact startRun_stageInv now
        | false => rwa [buttonPart_holding hhold hstart]
  · rw [not_or] at hs
    rw [buttonPart_in_run hs.1 hs.2]
    exact h.withPress _

theorem preheatTable_stageInv {t : Binary64} (hs : c.stage = .preheat) (h : StageInv c) :
    StageInv (preheatTable t c) := by
  have hdoor := (stageInv_iff_of_heating (.inl hs)).mp h
  obtain ⟨sub, top, bot, ht, -⟩ | ⟨-, ht⟩ | ⟨-, ht⟩ := preheatTable_cases t c <;> rw [ht]
  · exact (stageInv_iff_of_heating (c := setOutputs c sub top bot) (.inl hs)).mpr hdoor
  · exact (stageInv_iff_of_heating (.inr (.inl rfl))).mpr hdoor
  · exact h

theorem soakTable_stageInv {t : Binary64} (hs : c.stage = .soak) (h : StageInv c) :
    StageInv (soakTable t c) := by
  have hdoor := (stageInv_iff_of_heating (.inr (.inl hs))).mp h
  obtain ⟨sub, top, bot, ht, -⟩ | ⟨-, ht⟩ | ⟨-, ht⟩ := soakTable_cases t c <;> rw [ht]
  · exact (stageInv_iff_of_heating (c := setOutputs c sub top bot) (.inr (.inl hs))).mpr hdoor
  · exact (stageInv_iff_of_heating (.inr (.inr rfl))).mpr hdoor
  · exact h

theorem reflowTable_stageInv {p : Params} {t : Binary64} {now : Millis} (hs : c.stage = .reflow)
    (h : StageInv c) : StageInv (reflowTable p t now c) := by
  have hdoor := (stageInv_iff_of_heating (.inr (.inr hs))).mp h
  obtain ⟨sub, top, bot, ht⟩ | ⟨-, ht⟩ | ⟨-, ht⟩ := reflowTable_cases p t now c <;> rw [ht]
  · exact (stageInv_iff_of_heating (c := setOutputs c sub top bot) (.inr (.inr hs))).mpr hdoor
  · exact ⟨fun _ => ⟨rfl, rfl, rfl⟩, rfl, rfl, by simp [enterCool]⟩
  · exact h

theorem trackPeak_stage (t : Binary64) (es : Seconds) : (trackPeak t es c).stage = c.stage := by
  unfold trackPeak; split <;> rfl

theorem trackPeak_stageInv {t : Binary64} {es : Seconds} (hs : c.stage = .cool) (h : StageInv c) :
    StageInv (trackPeak t es c) := by
  cases hp : c.record.maxTempC.lt t with
  | true => rw [trackPeak_new hp]; exact h.withRecord (by simp [hs]) rfl rfl
  | false => rwa [trackPeak_old hp]

theorem coolTable_stageInv {t : Binary64} {es : Seconds} (hs : c.stage = .cool) (h : StageInv c) :
    StageInv (coolTable t es c) := by
  cases ht : t.le (degC 50) with
  | true =>
    rw [coolTable_end_eq ht]
    exact (stageInv_iff_of_isNegative (.inl rfl)).mpr ⟨⟨rfl, rfl, rfl⟩, rfl⟩
  | false =>
    rw [coolTable_on ht]
    have hpeak := trackPeak_stageInv (t := t) (es := es) (c := outputsOff c) hs h.outputsOff
    have hcool : (trackPeak t es (outputsOff c)).stage = .cool := (trackPeak_stage t es).trans hs
    exact hpeak.withRecord (by rw [hcool]; decide) rfl rfl

/-- The profile part, selected by the stage that the button part found (R201). -/
theorem profilePart_stageInv {p : Params} {s0 : Stage} {t : Binary64} {es : Seconds} {now : Millis}
    (hs : s0.isNegative = false → c.stage = s0) (h : StageInv c) :
    StageInv (profilePart p s0 t es now c) := by
  cases s0 with
  | off => exact h.outputsOff
  | hold => exact h.outputsOff
  | preheat =>
    have hpre := hs rfl
    exact preheatTable_stageInv (c := checkpointsUp t es c) hpre (h.withRecord (by simp [hpre]) rfl rfl)
  | soak =>
    have hsoak := hs rfl
    exact soakTable_stageInv (c := checkpointsUp t es c) hsoak (h.withRecord (by simp [hsoak]) rfl rfl)
  | reflow => exact reflowTable_stageInv (hs rfl) h
  | cool => exact coolTable_stageInv (hs rfl) h

/-- Without a published temperature the button leaves Off and Hold for each other only (R183). -/
theorem buttonPart_idle_of_not_tempValid {e : Estimator} {btn : Bool} {now : Millis}
    (he : e.tempValid = false) (h : c.stage = .off ∨ c.stage = .hold) :
    (buttonPart e btn now c).stage = .off ∨ (buttonPart e btn now c).stage = .hold := by
  cases btn with
  | false => rw [buttonPart_released, buttonReleased, if_pos h]; exact .inl rfl
  | true =>
    rcases h with hoff | hhold
    · rw [buttonPart_off hoff]; exact .inr rfl
    · rw [buttonPart_holding hhold (by simp [startCondition, he])]; exact .inr hhold

end

/-- CONTROL keeps the controller's invariant, from whatever estimator ESTIMATE left, as long as no published
temperature was taken back. -/
theorem controlled_inv {p : Params} {e e' : Estimator} {btn : Bool} {now : Millis} {c : StageController}
    (hvalid : e'.tempValid = false → e.tempValid = false) (h : ControllerInv e c) :
    ControllerInv e' (controlled p e' btn now c) := by
  have hstage : StageInv (controlled p e' btn now c) :=
    (profilePart_stageInv (buttonPart_stage_in_run btn) (buttonPart_stageInv h.stageInv)).safetyOverride _
  refine ⟨hstage.idle, fun hf => by simp [controlled, hf], hstage.alarm_enabled, hstage.door_valid,
    hstage.no_run, fun he' => ?_⟩
  have hidle := h.gated (hvalid he')
  rw [controlled, safetyOverride_stage, profilePart_of_isNegative _ _ _ (by rw [isNegative_eq]; simp [hidle])]
  exact buttonPart_idle_of_not_tempValid he' hidle

/-! ### PWM and BEEP (R242 to R244, R265) -/

/-- No slice turns a relay on without power. -/
theorem power_ne_zero_of_relayOn {p : Params} {power : Power} {k : Nat} (hp : p.wellFormed = true)
    (hk : 1 ≤ k) (h : relayOn p.slice6MinPower power k = true) : power ≠ 0 := by
  rintro rfl
  by_cases h6 : k = 6
  · have hmin := Params.slice6MinPower_range hp
    rw [h6, relayOn_six, decide_eq_true_eq, Fin.val_zero] at h
    omega
  · rw [relayOn_of_ne h6, decide_eq_true_eq, Fin.val_zero] at h
    omega

section
variable (raw : AdcCode) (btn door : Bool) (now : Millis) {s : State}

theorem body_outputInv (hp : s.params.wellFormed = true) : OutputInv (body raw btn door now s) where
  top h := by
    rw [body_pwm] at h
    exact power_ne_zero_of_relayOn hp (slice_pos _) h
  bot h := by
    rw [body_pwm] at h
    exact power_ne_zero_of_relayOn hp (slice_pos _) h
  buzzer h := by
    rw [body_alarm] at h ⊢
    exact ((beeped_buzzerOn_iff _).mp h).1

/-! ### BODY and the commands -/

/-- BODY leads to the invariant from the parts that speak of the parameters, the estimator and the controller:
it writes the outputs anew. -/
theorem body_inv (hrun : s.boot.phase = .run) (hevents : s.events = []) (hp : s.params.wellFormed = true)
    (he : EstimatorInv s.params s.est) (hc : ControllerInv s.est s.ctl) :
    Inv (body raw btn door now s) := by
  have hest : EstimatorInv s.params (body raw btn door now s).est := by
    rw [body_est]; exact estimate_inv raw s hp he
  refine ⟨by rwa [body_params], by rw [body_params]; exact hest.window, hest.published,
    by rw [body_params]; exact hest.fault, ?_, body_outputInv raw btn door now hp, ?_, ?_⟩
  · rw [body_ctl]
    exact controlled_inv (fun h => estimate_tempValid raw s (by rwa [body_est] at h)) hc
  · have hphase : (body raw btn door now s).boot.phase = .run := by rw [body_boot, hrun]
    exact ⟨fun h => absurd hphase h, fun h => by rw [hphase] at h; cases h⟩
  · rw [body_events]
    exact (estimate_events_length raw s).trans_eq (by rw [hevents]; rfl)

end

/-- The host's side of the state is free in the invariant, but for the number of events. -/
theorem Inv.withHost {s : State} (h : Inv s) (inbox : List Bundle) {events : List Event}
    (hlen : events.length ≤ 1) : Inv { s with inbox := inbox, events := events } :=
  ⟨h.isInstance, h.window, h.published, h.fault, h.controller, ⟨h.outputs.top, h.outputs.bot, h.outputs.buzzer⟩,
    ⟨h.boot.registers, h.boot.waiting⟩, hlen⟩

theorem inv_resetOf {p : Params} (hp : p.wellFormed = true) : Inv (State.resetOf p) := by
  have hest := estimatorInv_reset hp
  exact ⟨hp, hest.window, hest.published, hest.fault,
    ⟨fun _ => ⟨rfl, rfl, rfl⟩, fun _ => ⟨rfl, rfl⟩, rfl, rfl, fun _ => rfl, fun _ => .inl rfl⟩,
    ⟨fun h => absurd h Bool.false_ne_true, fun h => absurd h Bool.false_ne_true,
      fun h => absurd h Bool.false_ne_true⟩,
    ⟨fun _ => ⟨rfl, rfl, rfl, rfl⟩, fun _ => rfl⟩, Nat.zero_le _⟩

theorem Inv.estimatorInv {s : State} (h : Inv s) : EstimatorInv s.params s.est :=
  ⟨h.window, h.published, h.fault⟩

/-- A TICK keeps the invariant, in each of the four cases of the boot sequence. -/
theorem ticked_inv {s : State} (raw : AdcCode) (btn door : Bool) (now : Millis) (h : Inv s) :
    Inv (ticked raw btn door now s) := by
  have hclear : Inv s.clearEvents := h.withHost s.inbox (Nat.zero_le _)
  obtain ⟨hphase, ht⟩ | ⟨-, -, ht⟩ | ⟨-, -, ht⟩ | ⟨hphase, ht⟩ := ticked_cases raw btn door now s <;> rw [ht]
  · exact ⟨hclear.isInstance, hclear.window, hclear.published, hclear.fault, hclear.controller,
      ⟨hclear.outputs.top, hclear.outputs.bot, hclear.outputs.buzzer⟩,
      ⟨fun _ => h.boot.registers (by simp [hphase]), fun hw => by simp at hw⟩, hclear.events⟩
  · exact hclear
  · have hc := h.controller
    exact body_inv raw btn door now rfl rfl h.isInstance h.estimatorInv
      ⟨hc.idle, hc.faulted, hc.alarm_enabled, hc.door_valid, hc.no_run, hc.gated⟩
  · exact body_inv raw btn door now hphase rfl h.isInstance h.estimatorInv h.controller

/-- Every command keeps the invariant. -/
theorem exec_inv {s t : State} {i : Instr} (h : Inv s) (hexec : exec i s = .next t) : Inv t := by
  cases i with
  | nop => cases hexec; exact h.withHost s.inbox (Nat.zero_le _)
  | tick raw btn door now => cases hexec; exact ticked_inv raw btn door now h
  | reset => cases hexec; exact (inv_resetOf h.isInstance).withHost s.inbox (Nat.zero_le _)
  | reserved => cases hexec; exact h.withHost s.inbox (Nat.zero_le _)

/-- Settles O55: each phase keeps its part of the invariant, so each command keeps the whole. -/
theorem stepKeepsTheInvariant : Obligations.StepKeepsTheInvariant := by
  unfold Obligations.StepKeepsTheInvariant
  intro s t h hstep
  obtain ⟨-, rfl⟩ | ⟨b, rest, -, -, hexec⟩ := step_cases hstep
  · exact h
  · exact exec_inv (h.withHost rest h.events) hexec

/-- Settles O54: `State.reset` is the reset state of a parameter set that passes the check. -/
theorem resetMeetsTheInvariant : Obligations.ResetMeetsTheInvariant := by
  unfold Obligations.ResetMeetsTheInvariant
  exact ⟨fun p hp => inv_resetOf hp, inv_resetOf (by decide +kernel)⟩

end Sys2Proof.Machine
end

section
/-! What a TICK leaves alone, and which inputs reach which registers (R56, R260). -/

namespace Sys2Proof.Machine

section
variable {raw : AdcCode} {btn door : Bool} {now : Millis} {s : State} (h : s.boot.phase = .run)
include h

theorem ticked_run_params : (ticked raw btn door now s).params = s.params := by
  rw [ticked_run h, body_params, clearEvents_params]

theorem ticked_run_boot : (ticked raw btn door now s).boot = s.boot := by
  rw [ticked_run h, body_boot, clearEvents_boot]

theorem ticked_run_inbox : (ticked raw btn door now s).inbox = s.inbox := by
  rw [ticked_run h, body_inbox, clearEvents_inbox]

/-- The events of a RUN TICK are the ones ESTIMATE emits (R134). -/
theorem ticked_run_events : (ticked raw btn door now s).events = (estimate raw s.clearEvents).events := by
  rw [ticked_run h, body_events]

end

/-- Settles O18: no phase of BODY writes these registers. -/
theorem runTickFrame : Obligations.RunTickFrame := by
  unfold Obligations.RunTickFrame
  exact fun raw btn door now s h => ⟨_, rfl, ticked_run_params h, ticked_run_boot h, ticked_run_inbox h⟩

/-- Settles O26: both TICKs leave what ESTIMATE makes of the one `raw`. -/
theorem estimatorIgnoresButtonDoorAndTime : Obligations.EstimatorIgnoresButtonDoorAndTime := by
  unfold Obligations.EstimatorIgnoresButtonDoorAndTime
  exact fun raw btn btn' door door' now now' s h => ⟨_, _, rfl, rfl,
    (ticked_run_est h).trans (ticked_run_est h).symm, (ticked_run_events h).trans (ticked_run_events h).symm⟩

/-- The state with other values of the two registers that the door switch reaches. -/
def State.withAlarm (s : State) (active buzzer : Bool) : State :=
  s.setAlarm { s.alarm with alarmActive := active, buzzerOn := buzzer }

section
variable (raw : AdcCode) (btn door door' : Bool) (now : Millis) (s : State)

/-- ALARM alone reads the door, and BEEP alone reads what ALARM writes: the door reaches these two registers. -/
theorem body_door : ∃ active buzzer, body raw btn door' now s =
    (body raw btn door now s).withAlarm active buzzer := by
  unfold body
  generalize control btn now (estimate raw s) = c
  exact ⟨_, (beep now (pwm now (alarm door' now c))).alarm.buzzerOn, rfl⟩

theorem ticked_door : ∃ active buzzer, ticked raw btn door' now s =
    (ticked raw btn door now s).withAlarm active buzzer := by
  obtain ⟨h, ht⟩ | ⟨h, he, ht⟩ | ⟨h, he, ht⟩ | ⟨h, ht⟩ := ticked_cases raw btn door now s <;> rw [ht]
  · exact ⟨_, _, ticked_waitFirst h⟩
  · exact ⟨_, _, ticked_booting h he⟩
  · rw [ticked_bootEnd h he]; exact body_door ..
  · rw [ticked_run h]; exact body_door ..

end

/-- Settles O45: before the boot ends no TICK reads the door, and after it BODY brings it to these two. -/
theorem doorReachesOnlyTheAlarm : Obligations.DoorReachesOnlyTheAlarm := by
  unfold Obligations.DoorReachesOnlyTheAlarm
  intro raw btn now s
  obtain ⟨active, buzzer, h⟩ := ticked_door raw btn false true now s
  exact ⟨_, rfl, active, buzzer, congrArg _ h⟩

end Sys2Proof.Machine
end

section
/-! The ports and the pins (R51, R52, R104 to R108). -/

namespace Sys2Proof.Machine

theorem Stage.code_toInt (x : Stage) : x.code.toInt = match x with
    | .off => -2
    | .hold => -1
    | .preheat => 0
    | .soak => 1
    | .reflow => 2
    | .cool => 3 := by
  cases x <;> rfl

theorem Stage.code_bit2_iff (x : Stage) : x.code.getLsbD 2 = true ↔ x = .off ∨ x = .hold := by
  cases x <;> decide

theorem SampleStatus.code_toNat (x : SampleStatus) : x.code.toNat = match x with
    | .ok => 0
    | .fault .rawZero => 1
    | .fault .rawHigh => 2
    | .fault .badResult => 3 := by
  rcases x with _ | (_ | _ | _) <;> rfl

/-- A power's port reads as the power, and never as the code 7 (R107). -/
theorem power_port (x : Power) : (BitVec.ofNat 3 x.val).toNat = x.val ∧ BitVec.ofNat 3 x.val ≠ 7 := by
  revert x; decide

theorem substage_port (x : Substage) : (BitVec.ofNat 2 x.val).toNat = x.val := by revert x; decide

theorem booting_iff (b : BootSequencer) : booting b = true ↔ b.phase ≠ .run := decide_eq_true_iff

/-- Settles O46: the encodings of stage, sub-stage, powers and status, port by port; the other ports are their
registers by definition. -/
theorem portsCarryLegalCodes : Obligations.PortsCarryLegalCodes := by
  unfold Obligations.PortsCarryLegalCodes
  intro s
  obtain ⟨htop, htop7⟩ := power_port s.ctl.topPower
  obtain ⟨hbot, hbot7⟩ := power_port s.ctl.botPower
  exact ⟨Stage.code_toInt s.ctl.stage, Stage.code_bit2_iff s.ctl.stage, substage_port s.ctl.substage, htop, htop7,
    hbot, hbot7, SampleStatus.code_toNat s.est.sampleStatus, rfl, rfl, rfl, rfl, rfl, rfl, rfl, rfl, rfl, rfl, rfl,
    rfl, rfl, rfl, rfl, rfl, rfl, rfl, booting_iff s.boot⟩

/-- Settles O47: the relay pins are an XOR, and the buzzer's polarity is 0. -/
theorem pinsAreOutputsXorPolarity : Obligations.PinsAreOutputsXorPolarity := by
  unfold Obligations.PinsAreOutputsXorPolarity
  exact fun s => ⟨Bool.xor_iff_ne, Bool.xor_iff_ne, Bool.xor_false _⟩

end Sys2Proof.Machine
end

section
/-! The parameters are fixed (R89, R310): no command writes one. -/

namespace Sys2Proof.Machine

/-- The end of the boot writes registers only (R313). -/
@[simp] theorem bootEnd_params (now : Millis) (s : State) : (bootEnd now s).params = s.params := rfl

/-- No TICK writes a parameter, in each of the four cases of the boot sequence. -/
@[simp] theorem ticked_params (raw : AdcCode) (btn door : Bool) (now : Millis) (s : State) :
    (ticked raw btn door now s).params = s.params := by
  obtain ⟨-, ht⟩ | ⟨-, -, ht⟩ | ⟨-, -, ht⟩ | ⟨hrun, -⟩ := ticked_cases raw btn door now s
  · rw [ht, setBoot_params, clearEvents_params]
  · rw [ht, clearEvents_params]
  · rw [ht, body_params, setBoot_params, bootEnd_params, clearEvents_params]
  · exact ticked_run_params hrun

theorem exec_params {i : Instr} {s t : State} (hexec : exec i s = .next t) : t.params = s.params := by
  cases i with
  | nop => cases hexec; exact noOperation_params s
  | tick raw btn door now => cases hexec; exact ticked_params raw btn door now s
  | reset => cases hexec; exact resetRegisters_params s
  | reserved => cases hexec; exact noOperation_params s

/-- Settles O12: a step holds the state or runs one command, and no command writes a parameter. -/
theorem parametersNeverChange : Obligations.ParametersNeverChange := by
  unfold Obligations.ParametersNeverChange
  intro s t hstep
  obtain ⟨-, rfl⟩ | ⟨b, rest, -, -, hexec⟩ := step_cases hstep
  · rfl
  · rw [exec_params hexec, setInbox_params]

end Sys2Proof.Machine
end

section
/-! The bundle and its fields (R101, R102, R112): decoder and encoder undo each other on the fields a command has. -/

namespace Sys2Proof

theorem cmdField_eq_iff (b : Bundle) (c : BitVec 2) : cmdField b = c ↔ b.toNat % 4 = c.toNat := by
  rw [← BitVec.toNat_inj, cmdField_toNat]

theorem btnField_toNat (b : Bundle) : (btnField b).toNat = b.toNat / 2 ^ 2 % 2 := by
  rw [btnField, ← BitVec.testBit_toNat, Nat.toNat_testBit]

theorem doorField_toNat (b : Bundle) : (doorField b).toNat = b.toNat / 2 ^ 3 % 2 := by
  rw [doorField, ← BitVec.testBit_toNat, Nat.toNat_testBit]

/-! ### The decoder, by the command select -/

theorem decodeBundle_of_cmd_nop {b : Bundle} (h : cmdField b = 0#2) : decodeBundle b = .nop := if_pos h

theorem decodeBundle_of_cmd_tick {b : Bundle} (h : cmdField b = 1#2) :
    decodeBundle b = .tick (rawField b) (btnField b) (doorField b) (nowMsField b) := by
  rw [decodeBundle, h]; rfl

theorem decodeBundle_of_cmd_reset {b : Bundle} (h : cmdField b = 2#2) : decodeBundle b = .reset := by
  rw [decodeBundle, h]; rfl

theorem decodeBundle_of_cmd_reserved {b : Bundle} (h : cmdField b = 3#2) : decodeBundle b = .reserved := by
  rw [decodeBundle, h]; rfl

/-! ### The fields of an encoded TICK -/

section
variable (raw : AdcCode) (btn door : Bool) (nowMs : Millis)

@[simp] theorem rawField_encode_tick : rawField (encode (.tick raw btn door nowMs)) = raw := by
  have hraw := raw.isLt
  have hbtn := btn.toNat_lt
  have hdoor := door.toNat_lt
  apply BitVec.eq_of_toNat_eq
  rw [rawField_toNat, encode_tick_toNat]
  omega

@[simp] theorem btnField_encode_tick : btnField (encode (.tick raw btn door nowMs)) = btn := by
  have hbtn := btn.toNat_lt
  rw [Bool.eq_iff_iff, ← Bool.toNat_eq_one, ← Bool.toNat_eq_one, btnField_toNat, encode_tick_toNat]
  omega

@[simp] theorem doorField_encode_tick : doorField (encode (.tick raw btn door nowMs)) = door := by
  have hbtn := btn.toNat_lt
  have hdoor := door.toNat_lt
  rw [Bool.eq_iff_iff, ← Bool.toNat_eq_one, ← Bool.toNat_eq_one, doorField_toNat, encode_tick_toNat]
  omega

@[simp] theorem nowMsField_encode_tick : nowMsField (encode (.tick raw btn door nowMs)) = nowMs := by
  have hraw := raw.isLt
  have hbtn := btn.toNat_lt
  have hdoor := door.toNat_lt
  have hnow := nowMs.isLt
  apply BitVec.eq_of_toNat_eq
  rw [nowMsField_toNat, encode_tick_toNat]
  omega

end

/-! ### The obligations on the decoder -/

/-- Settles O2: the encoder writes each command's select, and a TICK's fields at their places. -/
theorem decodeOfEncodeIsTheCommand : Obligations.DecodeOfEncodeIsTheCommand := by
  unfold Obligations.DecodeOfEncodeIsTheCommand
  intro i
  cases i with
  | nop => exact decodeBundle_of_cmd_nop Laws.CmdCode.nop
  | tick raw btn door nowMs =>
    rw [decodeBundle_of_cmd_tick (Laws.CmdCode.tick raw btn door nowMs), rawField_encode_tick,
      btnField_encode_tick, doorField_encode_tick, nowMsField_encode_tick]
  | reset => exact decodeBundle_of_cmd_reset Laws.CmdCode.reset
  | reserved => exact decodeBundle_of_cmd_reserved Laws.CmdCode.reserved

/-- Settles O3: the select and the four fields of a TICK are all 52 bits. -/
theorem tickBundleIsDeterminedByItsFields : Obligations.TickBundleIsDeterminedByItsFields := by
  unfold Obligations.TickBundleIsDeterminedByItsFields
  intro b hcmd
  have hb : b.toNat < 2 ^ 52 := b.isLt
  rw [decodeBundle_of_cmd_tick ((cmdField_eq_iff b 1#2).mpr hcmd)]
  apply BitVec.eq_of_toNat_eq
  rw [encode_tick_toNat, nowMsField_toNat, rawField_toNat, doorField_toNat, btnField_toNat]
  omega

/-- Settles O4: the select picks the command, and each field is a quotient's remainder. -/
theorem decoderReadsTheFields : Obligations.DecoderReadsTheFields := by
  unfold Obligations.DecoderReadsTheFields
  intro b
  refine ⟨fun h => decodeBundle_of_cmd_nop ((cmdField_eq_iff b 0#2).mpr h), fun h => ?_,
    fun h => decodeBundle_of_cmd_reset ((cmdField_eq_iff b 2#2).mpr h),
    fun h => decodeBundle_of_cmd_reserved ((cmdField_eq_iff b 3#2).mpr h)⟩
  have hb : b.toNat < 2 ^ 52 := b.isLt
  have hnow : (nowMsField b).toNat = b.toNat / 2 ^ 20 := by rw [nowMsField_toNat]; omega
  exact ⟨_, _, _, _, decodeBundle_of_cmd_tick ((cmdField_eq_iff b 1#2).mpr h),
    by rw [btnField_eq, decide_eq_true_iff], by rw [doorField_eq, decide_eq_true_iff], rawField_toNat b, hnow⟩

/-- Settles O1, by evaluation of the nine bundles. -/
theorem writtenBundlesDecode : Obligations.WrittenBundlesDecode := by
  unfold Obligations.WrittenBundlesDecode
  decide

theorem bundleOfNat_of_lt {w : Nat} (h : w < 2 ^ 52) : bundleOfNat w = .ok (BitVec.ofNat 52 w) := if_pos h

theorem bundleOfNat_of_ge {w : Nat} (h : 2 ^ 52 ≤ w) : bundleOfNat w = .error .notABundle :=
  if_neg (Nat.not_lt.mpr h)

/-- Settles O7: every number below 2^52 is a bundle, and every bundle decodes. -/
theorem numbersAboveTheBundleAreRejected : Obligations.NumbersAboveTheBundleAreRejected := by
  unfold Obligations.NumbersAboveTheBundleAreRejected
  intro w
  rcases Nat.lt_or_ge w (2 ^ 52) with h | h
  · have hok : decode w = .ok (decodeBundle (BitVec.ofNat 52 w)) := by
      rw [decode, bundleOfNat_of_lt h]; rfl
    rw [hok]
    exact iff_of_false (fun heq => nomatch heq) (Nat.not_le.mpr h)
  · have herr : decode w = .error .notABundle := by rw [decode, bundleOfNat_of_ge h]; rfl
    exact iff_of_true herr h

end Sys2Proof
end

section
/-! The assembler's lines (R114, R115). -/

namespace Sys2Proof

theorem AsmLine.tickOperandsInRange_iff {raw btn door nowMs : Nat} :
    tickOperandsInRange raw btn door nowMs = true ↔
      raw < 2 ^ 16 ∧ btn < 2 ∧ door < 2 ∧ nowMs < 2 ^ 32 := by
  simp only [tickOperandsInRange, Bool.and_eq_true, decide_eq_true_eq, and_assoc]

/-- A level's operand, 0 or 1, as a level and back. -/
theorem beq_one_toNat {n : Nat} (h : n < 2) : (n == 1).toNat = n := by
  interval_cases n <;> rfl

/-- The TICK line's bundle as a number (R114). -/
theorem encode_tickOfNats_toNat {raw btn door nowMs : Nat} (hraw : raw < 2 ^ 16) (hbtn : btn < 2)
    (hdoor : door < 2) (hnow : nowMs < 2 ^ 32) :
    (encode (tickOfNats raw btn door nowMs)).toNat =
      nowMs * 2 ^ 20 + raw * 2 ^ 4 + door * 2 ^ 3 + btn * 2 ^ 2 + 1 := by
  rw [tickOfNats, encode_tick_toNat, BitVec.toNat_ofNat, BitVec.toNat_ofNat, Nat.mod_eq_of_lt hraw,
    Nat.mod_eq_of_lt hnow, beq_one_toNat hbtn, beq_one_toNat hdoor]

/-! ### What each line assembles to -/

theorem assemble_error {line : AsmLine} (h : ¬ line.wellFormed = true) :
    assemble line = .error .operandOutOfRange := if_neg h

theorem assemble_bundle {v : Nat} (h : v < 2 ^ 52) : assemble (.bundle v) = .ok [BitVec.ofNat 52 v] :=
  if_pos (decide_eq_true h)

theorem assemble_tick {raw btn door nowMs : Nat}
    (h : AsmLine.tickOperandsInRange raw btn door nowMs = true) :
    assemble (.tick raw btn door nowMs) = .ok [encode (tickOfNats raw btn door nowMs)] := if_pos h

theorem assemble_tickn {n raw btn door t0 : Nat} (dt : Nat) (hn : 1 ≤ n)
    (h : AsmLine.tickOperandsInRange raw btn door t0 = true) :
    assemble (.tickn n raw btn door t0 dt) = .ok ((List.range n).map fun i =>
      encode (tickOfNats raw btn door ((t0 + i * dt) % 2 ^ 32))) :=
  if_pos ((Bool.and_eq_true ..).mpr ⟨decide_eq_true hn, h⟩)

/-- Settles O5, line by line. -/
theorem assemblerEncodesLines : Obligations.AssemblerEncodesLines := by
  unfold Obligations.AssemblerEncodesLines
  refine ⟨rfl, rfl, fun v hv => ?_, fun v hv => ?_, fun raw btn door now hraw hbtn hdoor hnow => ?_,
    fun raw btn door now hout => ?_⟩
  · exact ⟨_, assemble_bundle hv, by rw [BitVec.toNat_ofNat, Nat.mod_eq_of_lt hv]⟩
  · exact assemble_error fun h => Nat.not_lt.mpr hv (of_decide_eq_true h)
  · exact ⟨_, assemble_tick (AsmLine.tickOperandsInRange_iff.mpr ⟨hraw, hbtn, hdoor, hnow⟩),
      encode_tickOfNats_toNat hraw hbtn hdoor hnow⟩
  · refine assemble_error fun h => ?_
    have hin := AsmLine.tickOperandsInRange_iff.mp h
    omega

/-- Settles O6: the i-th bundle encodes the i-th TICK, and the decoder gives that TICK back. -/
theorem ticknExpandsToTicks : Obligations.TicknExpandsToTicks := by
  unfold Obligations.TicknExpandsToTicks
  intro n raw btn door t0 dt hn hraw hbtn hdoor ht0
  refine ⟨_, assemble_tickn dt hn (AsmLine.tickOperandsInRange_iff.mpr ⟨hraw, hbtn, hdoor, ht0⟩), by simp,
    fun i w hw => ?_⟩
  obtain ⟨j, hj, rfl⟩ : ∃ j, (List.range n)[i]? = some j ∧
      encode (tickOfNats raw btn door ((t0 + j * dt) % 2 ^ 32)) = w := by
    rwa [List.getElem?_map, Option.map_eq_some_iff] at hw
  obtain ⟨hi, rfl⟩ := List.getElem?_eq_some_iff.mp hj
  refine ⟨_, _, _, _, decodeOfEncodeIsTheCommand _, ?_, beq_one_toNat hbtn, beq_one_toNat hdoor, ?_⟩
  · rw [BitVec.toNat_ofNat, Nat.mod_eq_of_lt hraw]
  · rw [BitVec.toNat_ofNat, Nat.mod_mod, List.getElem_range]

end Sys2Proof
end

section
/-! The step of a decoded bundle (R130), and the reserved command (R103). -/

namespace Sys2Proof.Machine

/-- Settles O8: the parameters pass the check in front of the step. -/
theorem stepRunsTheDecodedCommand : Obligations.StepRunsTheDecodedCommand := by
  unfold Obligations.StepRunsTheDecodedCommand
  intro s b rest hinbox hwf
  rw [step_of_inbox hinbox, if_pos hwf]
  rfl

/-- Settles O14: both commands are the same operation, which clears the event list. -/
theorem reservedCommandIsNop : Obligations.ReservedCommandIsNop := by
  unfold Obligations.ReservedCommandIsNop
  intro s
  have hreserved : exec .reserved s = .next s.noOperation := exec_reserved s
  exact ⟨hreserved.trans (exec_nop s).symm, hreserved⟩

end Sys2Proof.Machine
end

section
/-! The commands (R130 to R135): each completes in every state, and only a TICK emits, one event at most. -/

namespace Sys2Proof.Machine

/-- No command faults, blocks or is refused (R130). -/
theorem exec_completes (i : Instr) (s : State) : ∃ t, exec i s = .next t := by
  cases i with
  | nop => exact ⟨_, exec_nop s⟩
  | tick raw btn door now => exact ⟨_, exec_tick raw btn door now s⟩
  | reset => exact ⟨_, exec_reset s⟩
  | reserved => exact ⟨_, exec_reserved s⟩

/-- Settles O11: the step runs the command that the decoder reads from `cmd`, and every command completes. -/
theorem stepPerformsOneCommand : Obligations.StepPerformsOneCommand := by
  unfold Obligations.StepPerformsOneCommand
  intro s b rest hinbox hwf
  obtain ⟨t, ht⟩ := exec_completes (decodeBundle b) (s.setInbox rest)
  have hstep : step s = .next t := (stepRunsTheDecodedCommand s b rest hinbox hwf).trans ht
  refine ⟨t, hstep, fun hcmd => ?_, fun hcmd => ?_, fun hcmd => ?_⟩
  · rcases hcmd with hcmd | hcmd
    · rw [decodeBundle_of_cmd_nop ((cmdField_eq_iff b 0#2).mpr hcmd)] at ht
      cases ht; rfl
    · rw [decodeBundle_of_cmd_reserved ((cmdField_eq_iff b 3#2).mpr hcmd)] at ht
      cases ht; rfl
  · rwa [decodeBundle_of_cmd_tick ((cmdField_eq_iff b 1#2).mpr hcmd)] at ht
  · rw [decodeBundle_of_cmd_reset ((cmdField_eq_iff b 2#2).mpr hcmd)] at ht
    cases ht; rfl

/-! ### The events (R134) -/

/-- The one event is the estimator's: the published temperature of a valid sample, or the recorded code of an
invalid one. -/
def State.ReportsSample (s : State) : Prop :=
  (s.events = [.diag s.est.tempK] ∧ s.est.sampleStatus = .ok) ∨
    ∃ code, s.events = [.warn code] ∧ s.est.sampleStatus = .fault code

/-- A valid sample's status is OK, in an open window and in a full one (R153). -/
theorem acceptedEstimator_sampleStatus (p : Params) (t : Binary64) (e : Estimator) :
    (acceptedEstimator p t e).sampleStatus = .ok := by
  by_cases hfull : (accumulate t e).cnt.toNat = p.nAvg
  · rw [acceptedEstimator_of_full hfull]; rfl
  · rw [acceptedEstimator_of_open hfull]; rfl

/-- ESTIMATE emits where a sample fills the window or is invalid. -/
theorem estimate_reportsSample (raw : AdcCode) {s : State} (h : s.events = []) :
    (estimate raw s).events = [] ∨ (estimate raw s).ReportsSample := by
  cases hg : sampleGuard s.params raw with
  | ok t =>
    obtain ⟨hest, hevents⟩ := estimate_of_valid raw s hg
    rw [h] at hevents
    by_cases hfull : (accumulate t s.est).cnt.toNat = s.params.nAvg
    · rw [if_pos hfull, ← hest] at hevents
      exact .inr (.inl ⟨hevents, by rw [hest, acceptedEstimator_sampleStatus]⟩)
    · rw [if_neg hfull] at hevents
      exact .inl hevents
  | error code =>
    obtain ⟨hest, hevents⟩ := estimate_of_invalid raw s hg
    rw [h] at hevents
    exact .inr (.inr ⟨code, hevents, by rw [hest]; rfl⟩)

/-- The phases after ESTIMATE emit nothing and leave the estimator. -/
theorem body_reportsSample (raw : AdcCode) (btn door : Bool) (now : Millis) {s : State} (h : s.events = []) :
    (body raw btn door now s).events = [] ∨ (body raw btn door now s).ReportsSample := by
  rw [State.ReportsSample, body_events, body_est]
  exact estimate_reportsSample raw h

/-- A TICK emits in BODY alone, in each of the four cases of the boot sequence. -/
theorem ticked_reportsSample (raw : AdcCode) (btn door : Bool) (now : Millis) (s : State) :
    (ticked raw btn door now s).events = [] ∨ (ticked raw btn door now s).ReportsSample := by
  obtain ⟨-, ht⟩ | ⟨-, -, ht⟩ | ⟨-, -, ht⟩ | ⟨-, ht⟩ := ticked_cases raw btn door now s <;> rw [ht]
  · exact .inl rfl
  · exact .inl rfl
  · exact body_reportsSample raw btn door now rfl
  · exact body_reportsSample raw btn door now rfl

/-- Settles O22: NOP and RESET leave the event list empty, and a TICK's one event reports its sample. -/
theorem atMostOneEventPerCommand : Obligations.AtMostOneEventPerCommand := by
  unfold Obligations.AtMostOneEventPerCommand
  intro i s t hexec
  cases i with
  | nop => cases hexec; exact .inl (noOperation_events s)
  | tick raw btn door now =>
    cases hexec
    exact (ticked_reportsSample raw btn door now s).imp_right fun h => ⟨raw, btn, door, now, rfl, h⟩
  | reset => cases hexec; exact .inl (resetRegisters_events s)
  | reserved => cases hexec; exact .inl (noOperation_events s)

/-! ### NOP, RESET and a TICK in RUN (R132, R133, R135) -/

/-- Settles O13: NOP clears the event list of the last command and does nothing else. -/
theorem nopChangesNothing : Obligations.NopChangesNothing := by
  unfold Obligations.NopChangesNothing
  exact exec_nop

/-- After RESET the relays and the buzzer are off, so that the relay pins show their polarities (R51, R310). -/
theorem resetRegisters_pins (s : State) : s.resetRegisters.pins =
    { topRelay := s.params.topRelayInvert, botRelay := s.params.botRelayInvert, buzzer := false } := by
  simp [State.pins, PwmDriver.reset, AlarmMonitor.reset, buzzerInvert]

/-- After RESET the boot has not ended (R52, R310). -/
theorem resetRegisters_booting (s : State) : s.resetRegisters.ports.booting = true :=
  (booting_iff s.resetRegisters.boot).mpr (by simp [BootSequencer.reset])

/-- Settles O15: each unit's reset registers are written out in the model as R310 lists them. -/
theorem resetRestoresEveryRegister : Obligations.ResetRestoresEveryRegister := by
  unfold Obligations.ResetRestoresEveryRegister
  exact fun s => ⟨s.resetRegisters, exec_reset s, resetRegisters_params s, resetRegisters_inbox s,
    resetRegisters_events s, resetRegisters_boot s, resetRegisters_est s, resetRegisters_ctl s,
    resetRegisters_pwm s, resetRegisters_alarm s, resetRegisters_pins s, resetRegisters_booting s⟩

/-- Settles O17: in RUN a TICK clears the event list and runs BODY, which is the five phases. -/
theorem runTickRunsTheFivePhases : Obligations.RunTickRunsTheFivePhases := by
  unfold Obligations.RunTickRunsTheFivePhases
  intro raw btn door now s hrun
  rw [exec_tick, ticked_run hrun]
  rfl

end Sys2Proof.Machine
end

section
/-! What ESTIMATE does in a RUN TICK (R153 to R157): an invalid sample, a valid one that leaves the window open, and
one that fills it; and what no command but RESET does to the estimator. -/

namespace Sys2Proof.Machine

/-! ### Valid samples and causes of the fault (R153, R281) -/

theorem validSample_iff {p : Params} {raw : AdcCode} :
    ValidSample p raw ↔ sampleGuard p raw = .ok (lin p raw) := by
  rw [sampleGuard_ok_iff, ValidSample]
  simp only [and_true]

theorem sampleGuard_rawZero (p : Params) : sampleGuard p 0 = .error .rawZero := if_pos rfl

theorem sampleGuard_rawHigh {p : Params} {raw : AdcCode} (h0 : raw ≠ 0) (h : p.adcMax ≤ raw.toNat) :
    sampleGuard p raw = .error .rawHigh := (if_neg h0).trans (if_pos h)

theorem sampleGuard_badResult {p : Params} {raw : AdcCode} (h0 : raw ≠ 0) (h : raw.toNat < p.adcMax)
    (hbad : ¬(Binary64.posZero.lt (lin p raw) = true ∧ (lin p raw).lt tMaxK = true)) :
    sampleGuard p raw = .error .badResult := by
  rw [← Bool.and_eq_true] at hbad
  exact (if_neg h0).trans ((if_neg (Nat.not_le.mpr h)).trans (if_neg hbad))

/-- The guard finds the cause of the fault. -/
theorem sampleGuard_of_faultCause {p : Params} {raw : AdcCode} {code : SensorFault}
    (h : FaultCause p raw code) : sampleGuard p raw = .error code := by
  cases code with
  | rawZero =>
    obtain rfl : raw = 0 := h
    exact sampleGuard_rawZero p
  | rawHigh =>
    obtain ⟨h0, hhigh⟩ := h
    exact sampleGuard_rawHigh h0 hhigh
  | badResult =>
    obtain ⟨h0, hlow, hbad⟩ := h
    exact sampleGuard_badResult h0 hlow hbad

/-- A sample that is not valid has a cause. -/
theorem exists_sampleGuard_error {p : Params} {raw : AdcCode} (h : ¬ValidSample p raw) :
    ∃ code, sampleGuard p raw = .error code := by
  cases hg : sampleGuard p raw with
  | ok t =>
    obtain ⟨h0, hlow, hpos, hmax, -⟩ := sampleGuard_ok_iff.mp hg
    exact absurd ⟨h0, hlow, hpos, hmax⟩ h
  | error code => exact ⟨code, rfl⟩

/-! ### The estimator and the events of a RUN TICK -/

section
variable {p : Params} (e : Estimator) (hlimit : p.sensorFaultLimit ≤ 65535)
include hlimit

/-- The saturated count keeps its value in 16 bits, for a limit of 16 bits (R37, R156). -/
theorem countInvalid_badCnt :
    (countInvalid p e).badCnt.toNat = min (e.badCnt.toNat + 1) p.sensorFaultLimit :=
  (BitVec.toNat_ofNat ..).trans (Nat.mod_eq_of_lt (by omega))

/-- The latch compares the value of the saturated count (R157). -/
theorem countInvalid_sensorFault : (countInvalid p e).sensorFault =
    (e.sensorFault || decide (p.sensorFaultLimit ≤ min (e.badCnt.toNat + 1) p.sensorFaultLimit)) := by
  rw [← countInvalid_badCnt e hlimit]
  rfl

end

section
variable {raw : AdcCode} {btn door : Bool} {now : Millis} {s : State} (hrun : s.boot.phase = .run)
include hrun

/-- An invalid sample: the SensorFault is taken and counted (R156, R157). -/
theorem ticked_of_invalid {code : SensorFault} (hg : sampleGuard s.params raw = .error code) :
    (ticked raw btn door now s).est = countInvalid s.params { s.est with sampleStatus := .fault code } ∧
      (ticked raw btn door now s).events = [.warn code] := by
  rw [ticked_run_est hrun, ticked_run_events hrun]
  exact estimate_of_invalid raw s.clearEvents hg

variable (hvalid : ValidSample s.params raw)
include hvalid

/-- A valid sample that leaves the window open is accumulated (R154). -/
theorem ticked_of_open (hopen : (s.est.cnt + 1).toNat ≠ s.params.nAvg) :
    (ticked raw btn door now s).est = accumulate (lin s.params raw) s.est ∧
      (ticked raw btn door now s).events = [] := by
  rw [ticked_run_est hrun, ticked_run_events hrun]
  obtain ⟨hest, hevents⟩ := estimate_of_valid raw s.clearEvents (validSample_iff.mp hvalid)
  exact ⟨hest.trans (acceptedEstimator_of_open hopen), hevents.trans (if_neg hopen)⟩

/-- A valid sample that fills the window publishes the mean (R155). -/
theorem ticked_of_full (hfull : (s.est.cnt + 1).toNat = s.params.nAvg) :
    (ticked raw btn door now s).est = publishMean s.params (accumulate (lin s.params raw) s.est) ∧
      (ticked raw btn door now s).events = [.diag (ticked raw btn door now s).est.tempK] := by
  rw [ticked_run_est hrun, ticked_run_events hrun]
  obtain ⟨hest, hevents⟩ := estimate_of_valid raw s.clearEvents (validSample_iff.mp hvalid)
  refine ⟨hest.trans (acceptedEstimator_of_full hfull), ?_⟩
  rw [hest]
  exact hevents.trans (if_pos hfull)

end

/-- Settles O19: the guard answers the cause, and the count of 16 bits reaches the limit where its value does. -/
theorem invalidSampleRaisesSensorFault : Obligations.InvalidSampleRaisesSensorFault := by
  unfold Obligations.InvalidSampleRaisesSensorFault
  intro raw btn door now s code hrun hlimit hcause
  obtain ⟨hest, hevents⟩ := ticked_of_invalid (btn := btn) (door := door) (now := now) hrun
    (sampleGuard_of_faultCause hcause)
  have hstatus : (ticked raw btn door now s).est.sampleStatus = .fault code := by rw [hest]; rfl
  refine ⟨_, exec_tick .., hevents, ?_, ?_⟩
  · change (ticked raw btn door now s).est.sampleStatus.code = _
    rw [hstatus]
    cases code <;> rfl
  · dsimp only
    rw [hest, ← countInvalid_sensorFault s.est hlimit]
    rfl

/-- Settles O20: the two cases of the window, open and full. -/
theorem validSampleIsAccumulatedAndPublished : Obligations.ValidSampleIsAccumulatedAndPublished := by
  unfold Obligations.ValidSampleIsAccumulatedAndPublished
  intro raw btn door now s hrun hvalid
  refine ⟨_, exec_tick .., fun hopen => ticked_of_open hrun hvalid hopen, fun hfull => ?_⟩
  obtain ⟨hest, hevents⟩ := ticked_of_full (btn := btn) (door := door) (now := now) hrun hvalid hfull
  rw [hevents, hest]
  exact ⟨rfl, rfl⟩

/-! ### What the commands do to the estimator (R56, R159, R286) -/

/-- BODY is the only thing but RESET that writes the estimator: a command leaves it, or runs ESTIMATE on it from an
empty event list. -/
theorem exec_est_cases {i : Instr} {s t : State} (hexec : exec i s = .next t) :
    i = .reset ∨ t.est = s.est ∨ ∃ raw s', s'.est = s.est ∧ s'.events = [] ∧
      t.est = (estimate raw s').est ∧ t.events = (estimate raw s').events := by
  cases i with
  | nop => cases hexec; exact .inr (.inl (noOperation_est s))
  | tick raw btn door now =>
    cases hexec
    right
    obtain ⟨-, ht⟩ | ⟨-, -, ht⟩ | ⟨-, -, ht⟩ | ⟨-, ht⟩ := ticked_cases raw btn door now s <;> rw [ht]
    · exact .inl rfl
    · exact .inl rfl
    · exact .inr ⟨raw, (bootEnd now s.clearEvents).setBoot { s.boot with phase := .run }, rfl, rfl,
        body_est .., body_events ..⟩
    · exact .inr ⟨raw, s.clearEvents, rfl, rfl, body_est .., body_events ..⟩
  | reset => exact .inl rfl
  | reserved => cases hexec; exact .inr (.inl (noOperation_est s))

/-- ESTIMATE changes the published temperature only where it emits it (R159). -/
theorem estimate_tempK (raw : AdcCode) {s : State} (hevents : s.events = [])
    (hne : (estimate raw s).est.tempK ≠ s.est.tempK) :
    (estimate raw s).events = [.diag (estimate raw s).est.tempK] ∧ (estimate raw s).est.tempValid = true := by
  cases hg : sampleGuard s.params raw with
  | ok t =>
    obtain ⟨hest, hev⟩ := estimate_of_valid raw s hg
    by_cases hfull : (accumulate t s.est).cnt.toNat = s.params.nAvg
    · rw [if_pos hfull, ← hest, hevents] at hev
      exact ⟨hev, by rw [hest, acceptedEstimator_of_full hfull]; rfl⟩
    · exact absurd (by rw [hest, acceptedEstimator_of_open hfull]; rfl) hne
  | error code => exact absurd (by rw [(estimate_of_invalid raw s hg).1]; rfl) hne

/-- ESTIMATE never clears the latch (R157). -/
theorem estimate_sensorFault (raw : AdcCode) {s : State} (h : s.est.sensorFault = true) :
    (estimate raw s).est.sensorFault = true := by
  cases hg : sampleGuard s.params raw with
  | ok t =>
    rw [(estimate_of_valid raw s hg).1]
    by_cases hfull : (accumulate t s.est).cnt.toNat = s.params.nAvg
    · rw [acceptedEstimator_of_full hfull]; exact h
    · rw [acceptedEstimator_of_open hfull]; exact h
  | error code =>
    rw [(estimate_of_invalid raw s hg).1]
    exact Bool.or_eq_true_iff.mpr (.inl h)

/-- Settles O21: only ESTIMATE and RESET write the published temperature. -/
theorem temperatureChangesOnlyAtEmission : Obligations.TemperatureChangesOnlyAtEmission := by
  unfold Obligations.TemperatureChangesOnlyAtEmission
  intro i s t hexec hne
  obtain hreset | hsame | ⟨raw, s', hs, hempty, hest, hevents⟩ := exec_est_cases hexec
  · exact .inl hreset
  · exact absurd (by rw [hsame]) hne
  · rw [hest, ← hs] at hne
    rw [hest, hevents]
    exact .inr (estimate_tempK raw hempty hne)

/-- Settles O23: only ESTIMATE and RESET write the latch, and ESTIMATE only sets it. -/
theorem sensorFaultIsClearedOnlyByReset : Obligations.SensorFaultIsClearedOnlyByReset := by
  unfold Obligations.SensorFaultIsClearedOnlyByReset
  intro i s t hexec hfault hreset
  obtain h | hsame | ⟨raw, s', hs, -, hest, -⟩ := exec_est_cases hexec
  · exact absurd h hreset
  · rwa [hsame]
  · rw [hest]
    exact estimate_sensorFault raw (by rwa [hs])

end Sys2Proof.Machine
end

section
/-! Runs over TICKs (R130, R135), and what invalid samples in a row and a window of valid ones leave of the
estimator. -/

namespace Sys2Proof.Machine

/-! ### A run over TICKs -/

/-- The state after these TICKs, in order. -/
def State.afterTicks (s : State) (ticks : List TickInput) : State :=
  ticks.foldl (fun u i => ticked i.raw i.btn i.door i.nowMs u) s

/-- One more TICK at the end. -/
theorem afterTicks_concat (s : State) (ticks : List TickInput) (i : TickInput) :
    s.afterTicks (ticks ++ [i]) = ticked i.raw i.btn i.door i.nowMs (s.afterTicks ticks) :=
  List.foldl_concat ..

/-- No TICK writes a parameter (R89). -/
@[simp] theorem afterTicks_params (s : State) (ticks : List TickInput) :
    (s.afterTicks ticks).params = s.params := by
  induction ticks using List.reverseRecOn with
  | nil => rfl
  | append_singleton ticks i ih => rw [afterTicks_concat, ticked_params, ih]

section
variable {s : State} (hrun : s.boot.phase = .run)
include hrun

/-- The boot has ended for good (R312). -/
theorem afterTicks_run (ticks : List TickInput) : (s.afterTicks ticks).boot.phase = .run := by
  induction ticks using List.reverseRecOn with
  | nil => exact hrun
  | append_singleton ticks i ih => rw [afterTicks_concat, ticked_run_boot ih, ih]

/-- A RUN TICK reads and writes nothing of the inbox. -/
theorem ticked_setInbox (raw : AdcCode) (btn door : Bool) (now : Millis) (bs : List Bundle) :
    ticked raw btn door now (s.setInbox bs) = (ticked raw btn door now s).setInbox bs := by
  rw [ticked_run hrun, ticked_run (s := s.setInbox bs) hrun, ← body_setInbox]
  rfl

variable (hp : s.params.wellFormed = true)
include hp

/-- Where the host has issued TICKs and the parameters pass R7, a step runs the first of them (R130). -/
theorem step_withTicks_cons (i : TickInput) (rest : List TickInput) :
    step (s.withTicks (i :: rest)) = .next ((ticked i.raw i.btn i.door i.nowMs s).withTicks rest) := by
  rw [step_of_inbox (s := s.withTicks (i :: rest)) rfl, if_pos (show (s.withTicks _).params.wellFormed = true from hp),
    decodeOfEncodeIsTheCommand, exec_tick]
  exact congrArg _ (ticked_setInbox hrun ..)

end

/-- A run over the first of the issued TICKs leads to the state after them. -/
theorem core_run_withTicks (ticks rest : List TickInput) {s : State} (hrun : s.boot.phase = .run)
    (hp : s.params.wellFormed = true) :
    Sys2Proof.core.run ticks.length (s.withTicks (ticks ++ rest)) =
      .next ((s.afterTicks ticks).withTicks rest) := by
  induction ticks generalizing s with
  | nil => rfl
  | cons i ticks ih =>
    rw [List.length_cons, List.cons_append, core_run_succ (step_withTicks_cons hrun hp i (ticks ++ rest)),
      ih (by rw [ticked_run_boot hrun, hrun]) (by rw [ticked_params, hp])]
    rfl

/-! ### Invalid samples (R156, R157) -/

/-- `e'` is what `n` invalid samples in a row make of `e`, but for the status. -/
structure CountedInvalid (p : Params) (n : Nat) (e e' : Estimator) : Prop where
  acc : e'.acc = e.acc
  cnt : e'.cnt = e.cnt
  tempK : e'.tempK = e.tempK
  tempValid : e'.tempValid = e.tempValid
  badCnt : e'.badCnt.toNat = min (e.badCnt.toNat + n) p.sensorFaultLimit
  sensorFault : e'.sensorFault = (e.sensorFault || decide (p.sensorFaultLimit ≤ e.badCnt.toNat + n))

/-- The invariant says that the count is at most the limit, and that a count at the limit has latched the fault. -/
theorem countedInvalid_zero {p : Params} {e : Estimator} (h : FaultInv p e) : CountedInvalid p 0 e e := by
  refine ⟨rfl, rfl, rfl, rfl, (min_eq_left h.bad_le).symm, ?_⟩
  cases hf : e.sensorFault with
  | false =>
    have hlt := h.bad_lt hf
    simpa using hlt
  | true => rfl

/-- One more invalid sample is one more in the count. -/
theorem CountedInvalid.succ {p : Params} {n : Nat} {e e' : Estimator} (hlimit : p.sensorFaultLimit ≤ 65535)
    (h : CountedInvalid p n e e') (code : SensorFault) :
    CountedInvalid p (n + 1) e (countInvalid p { e' with sampleStatus := .fault code }) := by
  have hcnt := countInvalid_badCnt { e' with sampleStatus := .fault code } hlimit
  have hfault := countInvalid_sensorFault { e' with sampleStatus := .fault code } hlimit
  dsimp only at hcnt hfault
  rw [h.badCnt] at hcnt hfault
  refine ⟨h.acc, h.cnt, h.tempK, h.tempValid, by omega, ?_⟩
  rw [hfault, h.sensorFault, Bool.or_assoc, ← Bool.decide_or]
  exact congrArg (e.sensorFault || ·) (decide_eq_decide.mpr (by omega))

/-- Invalid samples alone are counted, one by one. -/
theorem afterTicks_countedInvalid {s : State} {ticks : List TickInput} (hrun : s.boot.phase = .run)
    (hlimit : s.params.sensorFaultLimit ≤ 65535) (hinv : FaultInv s.params s.est)
    (hbad : ∀ i ∈ ticks, ¬ValidSample s.params i.raw) :
    CountedInvalid s.params ticks.length s.est (s.afterTicks ticks).est := by
  induction ticks using List.reverseRecOn with
  | nil => exact countedInvalid_zero hinv
  | append_singleton ticks i ih =>
    have ih := ih fun j hj => hbad j (List.mem_append_left _ hj)
    obtain ⟨code, hg⟩ := exists_sampleGuard_error (hbad i (by simp))
    rw [← afterTicks_params s ticks] at hg
    rw [afterTicks_concat, (ticked_of_invalid (afterTicks_run hrun ticks) hg).1, afterTicks_params,
      List.length_append, List.length_singleton]
    exact ih.succ hlimit code

/-- Settles O24: the run leads to the state after the TICKs, each of which counts one invalid sample. -/
theorem consecutiveInvalidSamplesLatchTheFault : Obligations.ConsecutiveInvalidSamplesLatchTheFault := by
  unfold Obligations.ConsecutiveInvalidSamplesLatchTheFault
  intro s ticks hrun hp hinv hbad
  have hcore := core_run_withTicks ticks [] hrun hp
  rw [List.append_nil] at hcore
  have h := afterTicks_countedInvalid hrun (Params.sensorFaultLimit_range hp).2 hinv hbad
  exact ⟨_, hcore, h.acc, h.cnt, h.tempK, h.tempValid, h.badCnt, h.sensorFault⟩

/-! ### A window of valid samples (R154, R155) -/

/-- The sum of the samples of these TICKs, from +0.0, rounded once for each in their order (R154). -/
def sampleSum (p : Params) (ticks : List TickInput) : Binary64 :=
  ticks.foldl (fun (sum : Binary64) i => sum.add (lin p i.raw)) ⟨0⟩

theorem sampleSum_concat (p : Params) (ticks : List TickInput) (i : TickInput) :
    sampleSum p (ticks ++ [i]) = (sampleSum p ticks).add (lin p i.raw) := List.foldl_concat ..

/-- `e'` is an open window begun in `e` that holds the samples of these TICKs. -/
structure OpenWindow (p : Params) (ticks : List TickInput) (e e' : Estimator) : Prop where
  acc : e'.acc = sampleSum p ticks
  cnt : e'.cnt.toNat = ticks.length
  tempK : e'.tempK = e.tempK

section
variable {s : State} {ticks : List TickInput} (hrun : s.boot.phase = .run) (hp : s.params.wellFormed = true)
include hp

/-- In a window that is not full, one more sample does not wrap the count (R140). -/
theorem OpenWindow.cnt_succ {e e' : Estimator} (h : OpenWindow s.params ticks e e')
    (hlen : ticks.length < s.params.nAvg) : (e'.cnt + 1).toNat = ticks.length + 1 := by
  have hn := Params.nAvg_range hp
  rw [BitVec.toNat_add_of_lt (by rw [h.cnt]; change _ + 1 < _; omega), h.cnt]
  rfl

variable (hacc : s.est.acc = ⟨0⟩) (hcnt : s.est.cnt = 0)
include hrun hacc hcnt

/-- Fewer than `N_AVG` valid samples leave the window open (R154, R159). -/
theorem afterTicks_openWindow (hvalid : ∀ i ∈ ticks, ValidSample s.params i.raw)
    (hlen : ticks.length < s.params.nAvg) :
    OpenWindow s.params ticks s.est (s.afterTicks ticks).est := by
  induction ticks using List.reverseRecOn with
  | nil => exact ⟨hacc, by rw [show (s.afterTicks []).est.cnt = 0 from hcnt]; rfl, rfl⟩
  | append_singleton ticks i ih =>
    rw [List.length_append, List.length_singleton] at hlen
    have h := ih (fun j hj => hvalid j (List.mem_append_left _ hj)) (by omega)
    have hcnt' := h.cnt_succ hp (by omega)
    have hi := hvalid i (by simp)
    rw [← afterTicks_params s ticks] at hi
    rw [afterTicks_concat,
      (ticked_of_open (afterTicks_run hrun ticks) hi (by rw [hcnt', afterTicks_params]; omega)).1, afterTicks_params]
    exact ⟨by rw [sampleSum_concat, ← h.acc]; rfl, by rw [List.length_append]; exact hcnt', h.tempK⟩

/-- The last of `N_AVG` valid samples publishes the mean and empties the window (R155). -/
theorem afterTicks_fullWindow (hvalid : ∀ i ∈ ticks, ValidSample s.params i.raw)
    (hlen : ticks.length = s.params.nAvg) :
    (s.afterTicks ticks).est.tempK = (sampleSum s.params ticks).div (.ofNat s.params.nAvg) ∧
      (s.afterTicks ticks).est.tempValid = true ∧ (s.afterTicks ticks).est.acc = ⟨0⟩ ∧
      (s.afterTicks ticks).est.cnt = 0 ∧ (s.afterTicks ticks).events = [.diag (s.afterTicks ticks).est.tempK] := by
  have hn := Params.nAvg_range hp
  obtain rfl | ⟨init, last, rfl⟩ := ticks.eq_nil_or_concat'
  · rw [List.length_nil] at hlen
    omega
  · rw [List.length_append, List.length_singleton] at hlen
    have h := afterTicks_openWindow hrun hp hacc hcnt
      (fun j hj => hvalid j (List.mem_append_left _ hj)) (by omega : init.length < s.params.nAvg)
    have hcnt' := h.cnt_succ hp (by omega)
    have hlast := hvalid last (by simp)
    rw [← afterTicks_params s init] at hlast
    obtain ⟨hest, hevents⟩ := ticked_of_full (btn := last.btn) (door := last.door) (now := last.nowMs)
      (afterTicks_run hrun init) hlast (by rw [hcnt', afterTicks_params]; exact hlen)
    rw [afterTicks_concat]
    refine ⟨?_, by rw [hest]; rfl, by rw [hest]; rfl, by rw [hest]; rfl, hevents⟩
    rw [hest, sampleSum_concat, ← h.acc, afterTicks_params]
    rfl

end

/-- Settles O25: the window is open until the last TICK, which publishes the mean. -/
theorem fullWindowPublishesTheBlockAverage : Obligations.FullWindowPublishesTheBlockAverage := by
  unfold Obligations.FullWindowPublishesTheBlockAverage
  intro s ticks hrun hp hacc hcnt hlen hvalid
  refine ⟨fun k hk => ?_, ?_⟩
  · have hcore := core_run_withTicks (ticks.take k) (ticks.drop k) hrun hp
    rw [List.take_append_drop, List.length_take_of_le hk.le] at hcore
    have h := afterTicks_openWindow (ticks := ticks.take k) hrun hp hacc hcnt
      (fun i hi => hvalid i (List.mem_of_mem_take hi)) (by rw [List.length_take_of_le hk.le, ← hlen]; exact hk)
    exact ⟨_, hcore, h.tempK, h.cnt.trans (List.length_take_of_le hk.le)⟩
  · have hcore := core_run_withTicks ticks [] hrun hp
    rw [List.append_nil] at hcore
    exact ⟨_, hcore, afterTicks_fullWindow hrun hp hacc hcnt hvalid hlen⟩

end Sys2Proof.Machine
end

section
/-! `LIN` (R151, R152): the logarithm of the reference definition case by case, and a sample whose exact temperature is
in range. -/

namespace Sys2Proof.Binary64

/-! ### The place of a number against zero -/

theorem posZero_isNaN : posZero.isNaN = false := by decide

theorem posZero_rank : posZero.rank = 0 := by decide

theorem rank_pos_iff (x : Binary64) : 0 < x.rank ↔ x.sign = false ∧ x.magnitude ≠ 0 := by
  unfold rank
  cases x.sign with
  | false => simp [Nat.pos_iff_ne_zero]
  | true => simp

theorem rank_neg_iff (x : Binary64) : x.rank < 0 ↔ x.sign = true ∧ x.magnitude ≠ 0 := by
  unfold rank
  cases x.sign with
  | false => simp
  | true => simp [Nat.pos_iff_ne_zero]

theorem rank_eq_zero_iff (x : Binary64) : x.rank = 0 ↔ x.magnitude = 0 := by
  unfold rank
  cases x.sign <;> simp

theorem posZero_lt_iff (x : Binary64) : posZero.lt x = true ↔ x.isNaN = false ∧ 0 < x.rank := by
  simp [lt, posZero_isNaN, posZero_rank]

theorem lt_posZero_iff (x : Binary64) : x.lt posZero = true ↔ x.isNaN = false ∧ x.rank < 0 := by
  simp [lt, posZero_isNaN, posZero_rank]

theorem le_posZero_iff (x : Binary64) : x.le posZero = true ↔ x.isNaN = false ∧ x.rank ≤ 0 := by
  simp [le, posZero_isNaN, posZero_rank]

theorem posZero_le_iff (x : Binary64) : posZero.le x = true ↔ x.isNaN = false ∧ 0 ≤ x.rank := by
  simp [le, posZero_isNaN, posZero_rank]

end Sys2Proof.Binary64

namespace Sys2Proof.Machine

/-! ### The reference definition (R152) -/

section
variable {x : Binary64}

theorem platformLn_of_pos (h : Binary64.posZero.lt x = true) : platformLn x = Config.ln x := by
  obtain ⟨hnan, hrank⟩ := (Binary64.posZero_lt_iff x).mp h
  obtain ⟨hsign, hmag⟩ := x.rank_pos_iff.mp hrank
  simp [platformLn, hnan, hsign, hmag]

theorem platformLn_of_zero (hle : x.le .posZero = true) (hge : Binary64.posZero.le x = true) :
    platformLn x = .inf true := by
  obtain ⟨hnan, hrank⟩ := (Binary64.le_posZero_iff x).mp hle
  obtain ⟨-, hrank'⟩ := (Binary64.posZero_le_iff x).mp hge
  have hmag := x.rank_eq_zero_iff.mp (le_antisymm hrank hrank')
  simp [platformLn, hnan, hmag]

theorem platformLn_of_neg (h : x.lt .posZero = true) : platformLn x = .nan .ln x x := by
  obtain ⟨hnan, hrank⟩ := (Binary64.lt_posZero_iff x).mp h
  obtain ⟨hsign, hmag⟩ := x.rank_neg_iff.mp hrank
  simp [platformLn, hnan, hsign, hmag]

theorem platformLn_of_isNaN (h : x.isNaN = true) : platformLn x = .nan .ln x x := if_pos h

end

theorem lin_of_unlisted {p : Params} {raw : AdcCode} (h : p.linTable.lookup raw = none) :
    lin p raw = linRef p raw := by
  rw [lin, h]

/-- Settles O52: the number is the platform's logarithm of the resistance. -/
theorem unlistedCodesUseTheReferenceOrder : Obligations.UnlistedCodesUseTheReferenceOrder := by
  unfold Obligations.UnlistedCodesUseTheReferenceOrder
  intro p raw hlookup
  refine ⟨platformLn (linRth p raw), platformLn_of_pos, platformLn_of_zero, fun h => ?_, lin_of_unlisted hlookup⟩
  have hl : platformLn (linRth p raw) = .nan .ln (linRth p raw) (linRth p raw) :=
    h.elim platformLn_of_neg platformLn_of_isNaN
  rw [hl, Binary64.nan_isNaN]

/-! ### The real number a pattern stands for -/

theorem exists_binary64Value {x : Binary64} (h : x.isFinite = true) : ∃ r, Binary64Value x r :=
  ⟨x.toUnits / 2 ^ 1074, h, div_mul_cancel₀ _ (by positivity)⟩

/-- The comparison compares the real numbers (R9). -/
theorem Binary64Value.lt_iff {x y : Binary64} {r q : ℝ} (hx : Binary64Value x r) (hy : Binary64Value y q) :
    x.lt y = true ↔ r < q := by
  obtain ⟨hxf, hxu⟩ := hx
  obtain ⟨hyf, hyu⟩ := hy
  rw [Binary64.lt_iff_toUnits hxf hyf, ← mul_lt_mul_iff_left₀ (by positivity : (0 : ℝ) < 2 ^ 1074), hxu, hyu,
    Int.cast_lt]

theorem posZero_value : Binary64Value .posZero 0 :=
  ⟨by decide, by rw [Binary64.posZero_toUnits, zero_mul, Int.cast_zero]⟩

theorem tMaxK_value : Binary64Value tMaxK 1e6 := by
  refine ⟨tMaxK_finite, ?_⟩
  rw [Binary64.toUnits_of_not_sign tMaxK_sign, tMaxK_units, Int.cast_natCast, Nat.cast_mul, Nat.cast_pow,
    Nat.cast_two, show (1e6 : ℝ) = (1000000 : Nat) by norm_num]

theorem exists_pos_value {x : Binary64} (h : x.isPositiveFinite = true) : ∃ r, Binary64Value x r ∧ 0 < r := by
  obtain ⟨hpos, hfin⟩ := (Binary64.isPositiveFinite_iff x).mp h
  obtain ⟨r, hr⟩ := exists_binary64Value hfin
  exact ⟨r, hr, (posZero_value.lt_iff hr).mp hpos⟩

/-! ### A sample whose exact temperature is in range (R151 to R153) -/

theorem vcc_isPositiveFinite {p : Params} (h : p.wellFormed = true) : p.vcc.isPositiveFinite = true := by
  obtain ⟨-, -, -, -, -, -, hvcc, -⟩ := (Params.wellFormed_iff p).mp h
  exact (Binary64.isPositiveFinite_iff _).mpr hvcc

/-- The supply voltage cancels in the divider's equation (R151). -/
theorem dividerResistance_eq {vcc : ℝ} (h : vcc ≠ 0) (r raw adcMax : ℝ) :
    vcc * r / (raw * vcc / adcMax) - r = r * adcMax / raw - r := by
  rw [div_div_eq_mul_div, mul_comm raw, mul_assoc, mul_div_mul_left _ _ h]

/-- The exact conversion at one supply voltage is that at any other (R151). -/
theorem ExactConversion.change_vcc {p : Params} {vcc : Binary64} {raw : AdcCode} {temp : ℝ}
    (h : ExactConversion { p with vcc := vcc } raw temp) (hvcc : vcc.isPositiveFinite = true)
    (hp : p.vcc.isPositiveFinite = true) : ExactConversion p raw temp := by
  obtain ⟨v, r, a, b, c, vout, rth, hv, hr, ha, hb, hc, rfl, rfl, rfl⟩ := h
  have hv0 : 0 < v := (posZero_value.lt_iff hv).mp ((Binary64.isPositiveFinite_iff vcc).mp hvcc).1
  obtain ⟨v', hv', hv0'⟩ := exists_pos_value hp
  refine ⟨v', r, a, b, c, _, _, hv', hr, ha, hb, hc, rfl, rfl, ?_⟩
  rw [dividerResistance_eq hv0.ne', dividerResistance_eq hv0'.ne']

/-- A sample whose exact temperature lies above 0 and, with the tolerance, below `T_MAX_K`, is valid, and `LIN` is
within the tolerance of that temperature (R152 (b), R153). -/
theorem validSample_of_exactConversion {p : Params} {raw : AdcCode} {temp : ℝ} (hlin : LinWithinTolerance p)
    (hlow : 1 ≤ raw.toNat) (hhigh : raw.toNat ≤ p.adcMax - 1) (hadc : 2 ≤ p.adcMax)
    (hexact : ExactConversion p raw temp) (hpos : 0 < temp) (hmax : (1 + 1e-12) * temp < 1e6) :
    ValidSample p raw ∧ ∃ value, Binary64Value (lin p raw) value ∧ |value - temp| ≤ 1e-12 * temp := by
  obtain ⟨value, hvalue, htol⟩ := hlin raw temp hlow hhigh hexact hpos
  obtain ⟨hge, hle⟩ := abs_le.mp htol
  refine ⟨⟨?_, by omega, ?_, ?_⟩, value, hvalue, htol⟩
  · rintro rfl
    exact absurd hlow (by decide)
  · exact (posZero_value.lt_iff hvalue).mpr (by linarith)
  · exact (hvalue.lt_iff tMaxK_value).mpr (by linarith)

/-- Settles O53: the sample is `LIN`, which the tolerance makes valid, in a window left open or filled. -/
theorem conformingSampleIsAccumulated : Obligations.ConformingSampleIsAccumulated := by
  unfold Obligations.ConformingSampleIsAccumulated
  intro raw btn door now s vcc temp hrun hp hlin hlow hhigh hvcc hexact hpos hmax
  obtain ⟨hvalid, value, hvalue, htol⟩ := validSample_of_exactConversion hlin hlow hhigh
    (Params.adcMax_range hp).1 (hexact.change_vcc hvcc (vcc_isPositiveFinite hp)) hpos hmax
  refine ⟨_, lin s.params raw, value, exec_tick .., hvalue, htol, ?_⟩
  by_cases hfull : (s.est.cnt + 1).toNat = s.params.nAvg
  · obtain ⟨hest, hevents⟩ := ticked_of_full (btn := btn) (door := door) (now := now) hrun hvalid hfull
    rw [hest] at hevents ⊢
    exact ⟨rfl, rfl, rfl, fun hopen => absurd hfull hopen, fun _ => ⟨rfl, rfl, rfl, rfl, hevents⟩⟩
  · obtain ⟨hest, hevents⟩ := ticked_of_open (btn := btn) (door := door) (now := now) hrun hvalid hfull
    rw [hest]
    exact ⟨rfl, rfl, rfl, fun _ => ⟨rfl, rfl, rfl, rfl, hevents⟩, fun h => absurd h hfull⟩

end Sys2Proof.Machine
end

section
/-! The Stage Controller (R180 to R204): what CONTROL leaves, stage by stage, and what that says of a TICK. -/

namespace Sys2Proof.Machine

/-! ### CONTROL without a run, and in one -/

section
variable {p : Params} {e : Estimator} {btn : Bool} {now : Millis} {c : StageController}

/-- The override, register by register (R200). -/
theorem safetyOverride_eq (b : Bool) : safetyOverride b c =
    { c with topPower := if b then 0 else c.topPower, botPower := if b then 0 else c.botPower } := by
  cases b <;> rfl

/-- The override changes nothing where the powers are 0 (R200). -/
theorem safetyOverride_of_powersOff (b : Bool) (htop : c.topPower = 0) (hbot : c.botPower = 0) :
    safetyOverride b c = c := by
  obtain ⟨_, _, top, bot, _, _⟩ := c
  obtain rfl : top = 0 := htop
  obtain rfl : bot = 0 := hbot
  cases b <;> rfl

/-- In Off and Hold the button part alone decides, and the outputs are off (R185). -/
theorem controlled_idle (h : c.stage = .off ∨ c.stage = .hold) :
    controlled p e btn now c = outputsOff (buttonPart e btn now c) := by
  have hneg : c.stage.isNegative = true := by rw [isNegative_eq]; exact decide_eq_true h
  rw [controlled, profilePart_of_isNegative _ _ _ hneg, safetyOverride_of_powersOff _ rfl rfl]

/-- In a run the profile part works on the registers as the phase found them, and the button moves the hold
timer (R184). -/
theorem controlled_in_run {a : Stage} (hs : c.stage = a) (ha : a.isNegative = false) :
    controlled p e btn now c =
      safetyOverride e.sensorFault
        ((profilePart p a (celsius e.tempK) (elapsedSeconds now c.record.runStartMs) now c).withPress
          (if btn then c.pressStartMs else now)) := by
  rw [isNegative_eq, decide_eq_false_iff_not, not_or, ← hs] at ha
  rw [controlled, buttonPart_in_run ha.1 ha.2, profilePart_withPress, hs]

/-- A released button restarts the hold timer in every stage (R181). -/
theorem controlled_released_pressStartMs : (controlled p e false now c).pressStartMs = now := by
  rw [controlled, safetyOverride_pressStartMs, profilePart_pressStartMs, buttonPart_released]
  rfl

/-- The button during a run (R184): pressed and released differ in the hold timer only. -/
theorem controlled_pressed_in_run (h : c.stage.isNegative = false) :
    controlled p e true now c = (controlled p e false now c).withPress c.pressStartMs := by
  rw [controlled_in_run rfl h, controlled_in_run rfl h]
  cases e.sensorFault <;> rfl

end

/-! ### The button (R181 to R184) -/

/-- Settles O27: the profile part and the override keep the hold timer, and Off stays with its outputs off. -/
theorem buttonReleaseRestartsTheHold : Obligations.ButtonReleaseRestartsTheHold := by
  unfold Obligations.ButtonReleaseRestartsTheHold
  intro raw door now s hrun
  refine ⟨_, exec_tick .., ?_⟩
  rw [ticked_run_ctl hrun]
  refine ⟨controlled_released_pressStartMs, fun hidle => ?_⟩
  rw [controlled_idle hidle, buttonPart_released, buttonReleased, if_pos hidle]
  rfl

/-- Settles O28: in Off the button part reads nothing of the estimator. -/
theorem pressInOffEntersHold : Obligations.PressInOffEntersHold := by
  unfold Obligations.PressInOffEntersHold
  intro raw door now s hrun hoff
  refine ⟨_, exec_tick .., ?_⟩
  rw [ticked_run_ctl hrun, controlled_idle (.inl hoff), buttonPart_off hoff]
  rfl

/-- Settles O29: in Hold the button part starts a run or leaves the registers, by the start condition. -/
theorem holdStartsARunOnItsConditions : Obligations.HoldStartsARunOnItsConditions := by
  unfold Obligations.HoldStartsARunOnItsConditions
  intro raw door now s hrun hhold
  refine ⟨_, exec_tick .., ?_⟩
  rw [ticked_run_ctl hrun, controlled_idle (.inr hhold)]
  refine ⟨fun hstart => ?_, fun hstart => ?_⟩
  · rw [buttonPart_start hhold (startCondition_iff.mpr hstart)]
    rfl
  · rw [buttonPart_holding hhold (Bool.eq_false_iff.mpr (mt startCondition_iff.mp hstart))]
    rfl

/-- The state with another value of the one register that the button writes in a run. -/
def State.withPress (s : State) (ms : Millis) : State := s.setCtl (s.ctl.withPress ms)

/-- No phase but CONTROL reads the button or the hold timer. -/
theorem body_pressed_in_run (raw : AdcCode) (door : Bool) (now : Millis) {s : State}
    (h : s.ctl.stage.isNegative = false) :
    body raw true door now s = (body raw false door now s).withPress s.ctl.pressStartMs := by
  have hcontrol : control true now (estimate raw s) =
      (control false now (estimate raw s)).withPress s.ctl.pressStartMs := by
    rw [control, estimate_ctl, controlled_pressed_in_run h, control, estimate_ctl]
    rfl
  rw [body, hcontrol, body]
  rfl

/-- Settles O30: in a run CONTROL brings the button to the hold timer, which no later phase reads. -/
theorem buttonDuringARunOnlyMovesTheHoldTimer : Obligations.ButtonDuringARunOnlyMovesTheHoldTimer := by
  unfold Obligations.ButtonDuringARunOnlyMovesTheHoldTimer
  intro raw door now s hrun hoff hhold
  have hstage : s.ctl.stage.isNegative = false := by simp [isNegative_eq, hoff, hhold]
  refine ⟨_, exec_tick .., ?_, ?_⟩
  · rw [ticked_run_ctl hrun]
    exact controlled_released_pressStartMs
  · rw [exec_tick, ticked_run hrun, ticked_run hrun, body_pressed_in_run (s := s.clearEvents) raw door now hstage]
    rfl

/-! ### The tables (R189 to R194) -/

section
variable {p : Params} {t : Binary64} {es : Seconds} {now : Millis} {c : StageController} {row : ProfileRow}

/-- The first row that holds, of a stage with three rows. -/
theorem profileRow_cases {stage : Stage} {r1 r2 r3 : ProfileRow}
    (hrows : (profileRows p).filter (fun r => decide (r.stage = stage)) = [r1, r2, r3])
    (h : profileRow p stage t = some row) :
    (t.lt r1.below = true ∧ row = r1) ∨
    (t.lt r1.below = false ∧ t.lt r2.below = true ∧ row = r2) ∨
    (t.lt r1.below = false ∧ t.lt r2.below = false ∧ t.lt r3.below = true ∧ row = r3) := by
  have hfind : [r1, r2, r3].find? (fun r => t.lt r.below) = some row := by
    rw [← hrows, List.find?_filter, ← h, profileRow]
    congr 1
    funext r
    simp
  obtain ⟨h1, rfl⟩ | ⟨h1, hfind⟩ := List.find?_cons_eq_some.mp hfind
  · exact .inl ⟨h1, rfl⟩
  · rw [Bool.not_eq_true'] at h1
    obtain ⟨h2, rfl⟩ | ⟨h2, hfind⟩ := List.find?_cons_eq_some.mp hfind
    · exact .inr (.inl ⟨h1, h2, rfl⟩)
    · rw [Bool.not_eq_true'] at h2
      obtain ⟨h3, rfl⟩ | ⟨-, hfind⟩ := List.find?_cons_eq_some.mp hfind
      · exact .inr (.inr ⟨h1, h2, h3, rfl⟩)
      · cases hfind

theorem preheatTable_of_row (h : profileRow p .preheat t = some row) :
    preheatTable t c = setOutputs c row.substage row.top row.bot := by
  obtain ⟨h1, rfl⟩ | ⟨h1, h2, rfl⟩ | ⟨h1, h2, h3, rfl⟩ := profileRow_cases rfl h
  · exact preheatTable_row1 h1
  · exact preheatTable_row2 h1 h2
  · exact preheatTable_row3 h1 h2 h3

theorem soakTable_of_row (h : profileRow p .soak t = some row) :
    soakTable t c = setOutputs c row.substage row.top row.bot := by
  obtain ⟨h1, rfl⟩ | ⟨h1, h2, rfl⟩ | ⟨h1, h2, h3, rfl⟩ := profileRow_cases rfl h
  · exact soakTable_row1 h1
  · exact soakTable_row2 h1 h2
  · exact soakTable_row3 h1 h2 h3

theorem reflowTable_of_row (h : profileRow p .reflow t = some row) :
    reflowTable p t now c = setOutputs c row.substage row.top row.bot := by
  obtain ⟨h1, rfl⟩ | ⟨h1, h2, rfl⟩ | ⟨h1, h2, h3, rfl⟩ := profileRow_cases rfl h
  · exact reflowTable_row1 h1
  · exact reflowTable_row2 h1 h2
  · exact reflowTable_row3 h1 h2 h3

/-- Only the heating stages have rows. -/
theorem heating_of_profileRow {stage : Stage} (h : profileRow p stage t = some row) :
    stage = .preheat ∨ stage = .soak ∨ stage = .reflow := by
  cases stage with
  | off => cases h
  | hold => cases h
  | preheat => exact .inl rfl
  | soak => exact .inr (.inl rfl)
  | reflow => exact .inr (.inr rfl)
  | cool => cases h

/-- A row writes the outputs; in Preheat and Soak the record may hold new checkpoints besides. -/
theorem profilePart_of_row {s0 : Stage} (h : profileRow p s0 t = some row) :
    ∃ r, profilePart p s0 t es now c = setOutputs { c with record := r } row.substage row.top row.bot ∧
      (s0 = .reflow → r = c.record) := by
  obtain rfl | rfl | rfl := heating_of_profileRow h
  · exact ⟨_, preheatTable_of_row (c := checkpointsUp t es c) h, nofun⟩
  · exact ⟨_, soakTable_of_row (c := checkpointsUp t es c) h, nofun⟩
  · exact ⟨c.record, reflowTable_of_row h, fun _ => rfl⟩

/-- At 140 °C and above no row of Preheat holds (R190). -/
theorem preheatTable_leaves (h : (degC 140).le t = true) : preheatTable t c = { c with stage := .soak } := by
  obtain ⟨_, _, _, -, hlt⟩ | ⟨-, ht⟩ | ⟨hle, -⟩ := preheatTable_cases t c
  · rw [Binary64.not_lt_of_le h] at hlt; cases hlt
  · exact ht
  · rw [h] at hle; cases hle

/-- At 180 °C and above no row of Soak holds (R192). -/
theorem soakTable_leaves (h : (degC 180).le t = true) : soakTable t c = { c with stage := .reflow } := by
  obtain ⟨_, _, _, -, hlt⟩ | ⟨-, ht⟩ | ⟨hle, -⟩ := soakTable_cases t c
  · rw [Binary64.not_lt_of_le h] at hlt; cases hlt
  · exact ht
  · rw [h] at hle; cases hle

/-- At 212 °C and above no row of Reflow holds, since the bound of its second row is no higher (R7, R194). -/
theorem reflowTable_leaves (hp : p.wellFormed = true) (h : (degC 212).le t = true) :
    reflowTable p t now c = enterCool now c := by
  have hsub2 := Binary64.le_of_le_of_le (Params.sub2_le_degC_212 hp) h
  have h190 := Binary64.le_of_le_of_le (Params.degC_190_le_sub2 hp) hsub2
  rw [reflowTable_exit (Binary64.not_lt_of_le h190) (Binary64.not_lt_of_le hsub2) (Binary64.not_lt_of_le h),
    if_pos h]

/-- The Preheat table writes nothing of the record. -/
@[simp] theorem preheatTable_record : (preheatTable t c).record = c.record := by
  obtain ⟨_, _, _, ht, -⟩ | ⟨-, ht⟩ | ⟨-, ht⟩ := preheatTable_cases t c <;> rw [ht]
  rfl

/-- The Soak table writes nothing of the record. -/
@[simp] theorem soakTable_record : (soakTable t c).record = c.record := by
  obtain ⟨_, _, _, ht, -⟩ | ⟨-, ht⟩ | ⟨-, ht⟩ := soakTable_cases t c <;> rw [ht]
  rfl

end

/-! ### The heating stages (R186 to R194) -/

/-- Settles O31: the row writes the outputs, then the override and the hold timer their registers. -/
theorem heatingStageAppliesTheFirstRow : Obligations.HeatingStageAppliesTheFirstRow := by
  unfold Obligations.HeatingStageAppliesTheFirstRow
  intro raw btn door now s hrun
  refine ⟨_, exec_tick .., fun row hrow => ?_⟩
  rw [ticked_run_ctl hrun]
  have hheating : s.ctl.stage.isNegative = false := by
    obtain hs | hs | hs := heating_of_profileRow hrow <;> rw [hs] <;> rfl
  obtain ⟨r, hpart, hreflow⟩ := profilePart_of_row
    (es := elapsedSeconds now s.ctl.record.runStartMs) (now := now) hrow
  rw [controlled_in_run rfl hheating, hpart, safetyOverride_eq]
  exact ⟨rfl, hreflow⟩

/-- Settles O32: past its last bound the table writes the stage and no output. -/
theorem stageExitHoldsTheOutputs : Obligations.StageExitHoldsTheOutputs := by
  unfold Obligations.StageExitHoldsTheOutputs
  intro raw btn door now s hrun
  refine ⟨_, exec_tick .., ?_⟩
  rw [ticked_run_ctl hrun]
  refine ⟨fun hs ht => ?_, fun hs ht => ?_⟩
  · rw [controlled_in_run hs rfl, profilePart, preheatTable_leaves ht, safetyOverride_eq]
    rfl
  · rw [controlled_in_run hs rfl, profilePart, soakTable_leaves ht, safetyOverride_eq]
    rfl

/-- Settles O33: the exit from Reflow turns the outputs off, so that the override changes nothing. -/
theorem reflowExitEntersCool : Obligations.ReflowExitEntersCool := by
  unfold Obligations.ReflowExitEntersCool
  intro raw btn door now s hrun hp hs
  refine ⟨_, exec_tick .., fun ht => ?_⟩
  rw [ticked_run_ctl hrun, controlled_in_run hs rfl, profilePart, reflowTable_leaves hp ht,
    safetyOverride_of_powersOff _ rfl rfl]
  rfl

section
variable {p : Params} {e : Estimator} {btn : Bool} {now : Millis} {c : StageController}

/-- In Preheat and Soak the checkpoints are all that CONTROL writes of the record (R186 to R188). -/
theorem controlled_record_rising (h : c.stage = .preheat ∨ c.stage = .soak) :
    (controlled p e btn now c).record =
      (checkpointsUp (celsius e.tempK) (elapsedSeconds now c.record.runStartMs) c).record := by
  rcases h with h | h <;> rw [controlled_in_run h rfl, safetyOverride_record]
  · exact preheatTable_record
  · exact soakTable_record

end

theorem latch_eq_ite (x : Checkpoint) (condition : Bool) (es : Seconds) : x.latch condition es =
    if condition = true ∧ x.valid = false then { seconds := es, valid := true } else x := by
  simp [Checkpoint.latch]

/-- Settles O34: the record is the one that the checkpoints leave. -/
theorem risingCheckpointsLatchOnce : Obligations.RisingCheckpointsLatchOnce := by
  unfold Obligations.RisingCheckpointsLatchOnce
  intro raw btn door now s hrun hs
  refine ⟨_, exec_tick .., ?_⟩
  rw [ticked_run_ctl hrun, controlled_record_rising hs]
  simp only [checkpointsUp, latch_eq_ite]
  rfl

/-! ### Cool (R195 to R199) -/

/-- Above 50 °C Cool keeps the run, register by register (R195 to R197). -/
theorem coolTable_on_eq {t : Binary64} {es : Seconds} {c : StageController} (h : t.le (degC 50) = false) :
    coolTable t es c =
      { stage := c.stage, substage := 0, topPower := 0, botPower := 0, pressStartMs := c.pressStartMs
        record := { c.record with
          maxTempC := if c.record.maxTempC.lt t = true then t else c.record.maxTempC
          elPeak := if c.record.maxTempC.lt t = true then { seconds := es, valid := true } else c.record.elPeak
          el180dw := c.record.el180dw.latch (t.le (degC 180)) es } } := by
  rw [coolTable_on h]
  cases hpeak : c.record.maxTempC.lt t with
  | true => rw [trackPeak_new (c := outputsOff c) hpeak]; rfl
  | false => rw [trackPeak_old (c := outputsOff c) hpeak]; rfl

/-- Settles O35: either branch of Cool leaves the outputs off, so that the override changes nothing. -/
theorem coolTracksThePeakAndEndsTheRun : Obligations.CoolTracksThePeakAndEndsTheRun := by
  unfold Obligations.CoolTracksThePeakAndEndsTheRun
  intro raw btn door now s hrun hs
  refine ⟨_, exec_tick .., ?_⟩
  rw [ticked_run_ctl hrun, controlled_in_run hs rfl, profilePart]
  refine ⟨fun ht => ?_, fun ht => ?_⟩
  · rw [coolTable_on_eq ht, hs, safetyOverride_of_powersOff _ rfl rfl, latch_eq_ite]
    rfl
  · rw [coolTable_end_eq ht, safetyOverride_of_powersOff _ rfl rfl]
    rfl

/-! ### The sensor fault (R200) -/

/-- Settles O36: the override turns the powers off, and no relay is on without its power. -/
theorem sensorFaultTurnsTheHeatersOff : Obligations.SensorFaultTurnsTheHeatersOff := by
  unfold Obligations.SensorFaultTurnsTheHeatersOff
  intro raw btn door now s hrun hp
  refine ⟨_, exec_tick .., fun hfault => ?_⟩
  have houtputs : OutputInv (ticked raw btn door now s) := by
    rw [ticked_run hrun]; exact body_outputInv raw btn door now hp
  have htop : (ticked raw btn door now s).ctl.topPower = 0 := by
    rw [ticked_run_ctl hrun, controlled, safetyOverride_topPower, if_pos hfault]
  have hbot : (ticked raw btn door now s).ctl.botPower = 0 := by
    rw [ticked_run_ctl hrun, controlled, safetyOverride_botPower, if_pos hfault]
  exact ⟨htop, hbot, Bool.eq_false_iff.mpr fun h => houtputs.top h htop,
    Bool.eq_false_iff.mpr fun h => houtputs.bot h hbot⟩

end Sys2Proof.Machine
end

section
/-! The transitions of `stage` (R202) and the order of the rising checkpoints (R203): what a command does to the
Stage Controller, said once, and what CONTROL makes of the stage and of the record. -/

namespace Sys2Proof.Machine

/-! ### What the commands do to the Stage Controller (R56, R131 to R133) -/

/-- A TICK leaves the Stage Controller, or runs CONTROL on it; the TICK that ends the boot restarts the hold timer
before that (R313). -/
theorem ticked_ctl_cases (raw : AdcCode) (btn door : Bool) (now : Millis) (s : State) :
    (ticked raw btn door now s).ctl = s.ctl ∨ ∃ ms, (ms = s.ctl.pressStartMs ∨ ms = now) ∧
      (ticked raw btn door now s).ctl =
        controlled s.params (ticked raw btn door now s).est btn now (s.ctl.withPress ms) := by
  obtain ⟨-, ht⟩ | ⟨-, -, ht⟩ | ⟨-, -, ht⟩ | ⟨hrun, -⟩ := ticked_cases raw btn door now s
  · exact .inl (by rw [ht, setBoot_ctl, clearEvents_ctl])
  · exact .inl (by rw [ht, clearEvents_ctl])
  · exact .inr ⟨now, .inr rfl, by rw [ht]; exact body_ctl ..⟩
  · exact .inr ⟨s.ctl.pressStartMs, .inl rfl, ticked_run_ctl hrun⟩

/-- A command leaves the Stage Controller, resets it, or is a TICK that runs CONTROL on it. -/
theorem exec_ctl_cases {i : Instr} {s t : State} (hexec : exec i s = .next t) :
    t.ctl = s.ctl ∨ (i = .reset ∧ t.ctl = .reset) ∨ ∃ raw btn door now ms,
      i = .tick raw btn door now ∧ (ms = s.ctl.pressStartMs ∨ ms = now) ∧
        t.ctl = controlled s.params t.est btn now (s.ctl.withPress ms) := by
  cases i with
  | nop => cases hexec; exact .inl (noOperation_ctl s)
  | tick raw btn door now =>
    cases hexec
    exact (ticked_ctl_cases raw btn door now s).imp_right fun ⟨ms, h⟩ =>
      .inr ⟨raw, btn, door, now, ms, rfl, h⟩
  | reset => cases hexec; exact .inr (.inl ⟨rfl, resetRegisters_ctl s⟩)
  | reserved => cases hexec; exact .inl (noOperation_ctl s)

/-! ### The stage after CONTROL -/

section
variable {p : Params} {e : Estimator} {btn : Bool} {now : Millis} {c : StageController}

theorem controlled_stage_of_off (h : c.stage = .off) :
    (controlled p e btn now c).stage = if btn = true then .hold else .off := by
  rw [controlled_idle (.inl h)]
  cases btn with
  | false => rw [buttonPart_released, buttonReleased, if_pos (.inl h)]; rfl
  | true => rw [buttonPart_off h]; rfl

theorem controlled_stage_of_hold_released (h : c.stage = .hold) :
    (controlled p e false now c).stage = .off := by
  rw [controlled_idle (.inr h), buttonPart_released, buttonReleased, if_pos (.inr h)]
  rfl

theorem controlled_stage_of_hold_pressed (h : c.stage = .hold) : (controlled p e true now c).stage =
    if startCondition e c.pressStartMs now = true then .preheat else .hold := by
  rw [controlled_idle (.inr h)]
  cases hstart : startCondition e c.pressStartMs now with
  | false => rw [buttonPart_holding h hstart]; exact h
  | true => rw [buttonPart_start h hstart]; rfl

/-- In a run the profile part alone decides the stage. -/
theorem controlled_stage_in_run {a : Stage} (hs : c.stage = a) (ha : a.isNegative = false) :
    (controlled p e btn now c).stage =
      (profilePart p a (celsius e.tempK) (elapsedSeconds now c.record.runStartMs) now c).stage := by
  rw [controlled_in_run hs ha, safetyOverride_stage]
  rfl

theorem controlled_stage_of_preheat (h : c.stage = .preheat) : (controlled p e btn now c).stage =
    if (degC 140).le (celsius e.tempK) = true then .soak else .preheat := by
  rw [controlled_stage_in_run h rfl, profilePart]
  obtain ⟨_, _, _, ht, hlt⟩ | ⟨hle, ht⟩ | ⟨hle, ht⟩ := preheatTable_cases (celsius e.tempK)
    (checkpointsUp (celsius e.tempK) (elapsedSeconds now c.record.runStartMs) c) <;> rw [ht]
  · rw [if_neg fun hle => by rw [Binary64.not_lt_of_le hle] at hlt; cases hlt]; exact h
  · rw [if_pos hle]
  · rw [if_neg (Bool.eq_false_iff.mp hle)]; exact h

theorem controlled_stage_of_soak (h : c.stage = .soak) : (controlled p e btn now c).stage =
    if (degC 180).le (celsius e.tempK) = true then .reflow else .soak := by
  rw [controlled_stage_in_run h rfl, profilePart]
  obtain ⟨_, _, _, ht, hlt⟩ | ⟨hle, ht⟩ | ⟨hle, ht⟩ := soakTable_cases (celsius e.tempK)
    (checkpointsUp (celsius e.tempK) (elapsedSeconds now c.record.runStartMs) c) <;> rw [ht]
  · rw [if_neg fun hle => by rw [Binary64.not_lt_of_le hle] at hlt; cases hlt]; exact h
  · rw [if_pos hle]
  · rw [if_neg (Bool.eq_false_iff.mp hle)]; exact h

/-- Reflow is kept or left for Cool at 212 °C, whatever the bound of its second row. -/
theorem controlled_stage_of_reflow (h : c.stage = .reflow) :
    (controlled p e btn now c).stage = .reflow ∨
      ((degC 212).le (celsius e.tempK) = true ∧ (controlled p e btn now c).stage = .cool) := by
  rw [controlled_stage_in_run h rfl, profilePart]
  obtain ⟨_, _, _, ht⟩ | ⟨hle, ht⟩ | ⟨-, ht⟩ := reflowTable_cases p (celsius e.tempK) now c <;> rw [ht]
  · exact .inl h
  · exact .inr ⟨hle, rfl⟩
  · exact .inl h

theorem controlled_stage_of_reflow_leaving (hp : p.wellFormed = true) (h : c.stage = .reflow)
    (ht : (degC 212).le (celsius e.tempK) = true) : (controlled p e btn now c).stage = .cool := by
  rw [controlled_stage_in_run h rfl, profilePart, reflowTable_leaves hp ht]
  rfl

theorem controlled_stage_of_cool (h : c.stage = .cool) : (controlled p e btn now c).stage =
    if (celsius e.tempK).le (degC 50) = true then .off else .cool := by
  rw [controlled_stage_in_run h rfl, profilePart]
  cases ht : (celsius e.tempK).le (degC 50) with
  | true => rw [coolTable_end_eq ht]; rfl
  | false => rw [coolTable_on_eq ht]; exact h

/-! ### The summary of the transitions (R202) -/

/-- The summary has no row from a stage to itself. -/
theorem Transition.ne {a b : Stage} (h : Transition e c btn now a b) : b ≠ a := by
  rintro rfl
  cases b <;> exact h

/-- A stage written under a guard, and different from the one kept otherwise, met its guard. -/
theorem guard_of_ne {condition : Prop} [Decidable condition] {x a b : Stage}
    (hx : x = if condition then b else a) (hne : x ≠ a) : condition ∧ x = b := by
  split_ifs at hx with hcondition
  · exact ⟨hcondition, hx⟩
  · exact absurd hx hne

/-- A stage that CONTROL changes is changed by a row of the summary. -/
theorem transition_of_controlled_ne {a : Stage} (hs : c.stage = a) (hne : (controlled p e btn now c).stage ≠ a) :
    Transition e c btn now a (controlled p e btn now c).stage := by
  cases a with
  | off =>
    obtain ⟨hbtn, hnext⟩ := guard_of_ne (controlled_stage_of_off hs) hne
    rw [hnext]; exact hbtn
  | hold =>
    cases btn with
    | false => rw [controlled_stage_of_hold_released hs]; rfl
    | true =>
      obtain ⟨hstart, hnext⟩ := guard_of_ne (controlled_stage_of_hold_pressed hs) hne
      rw [hnext]; exact ⟨rfl, startCondition_iff.mp hstart⟩
  | preheat =>
    obtain ⟨ht, hnext⟩ := guard_of_ne (controlled_stage_of_preheat hs) hne
    rw [hnext]; exact ht
  | soak =>
    obtain ⟨ht, hnext⟩ := guard_of_ne (controlled_stage_of_soak hs) hne
    rw [hnext]; exact ht
  | reflow =>
    obtain ⟨ht, hnext⟩ := (controlled_stage_of_reflow hs).resolve_left hne
    rw [hnext]; exact ht
  | cool =>
    obtain ⟨ht, hnext⟩ := guard_of_ne (controlled_stage_of_cool hs) hne
    rw [hnext]; exact ht

/-- A row of the summary whose condition holds is taken, where the parameters pass the check (R7). -/
theorem controlled_stage_of_transition {a b : Stage} (hp : p.wellFormed = true) (hs : c.stage = a)
    (h : Transition e c btn now a b) : (controlled p e btn now c).stage = b := by
  unfold Transition at h
  split at h
  · rw [controlled_stage_of_off hs, if_pos h]
  · rw [h]; exact controlled_stage_of_hold_released hs
  · obtain ⟨rfl, hstart⟩ := h
    rw [controlled_stage_of_hold_pressed hs, if_pos (startCondition_iff.mpr hstart)]
  · rw [controlled_stage_of_preheat hs, if_pos h]
  · rw [controlled_stage_of_soak hs, if_pos h]
  · exact controlled_stage_of_reflow_leaving hp hs h
  · rw [controlled_stage_of_cool hs, if_pos h]
  · exact h.elim

/-- The hold timer is read by the start of a run alone, and one that restarts at `now` starts none. -/
theorem Transition.of_withPress {a b : Stage} {ms : Millis} (hms : ms = c.pressStartMs ∨ ms = now)
    (h : Transition e (c.withPress ms) btn now a b) : Transition e c btn now a b := by
  obtain rfl | rfl := hms
  · exact h
  · unfold Transition at h
    split at h
    · exact h
    · exact h
    · have htime : buttonTimeMs ≤ elapsedMs ms ms := h.2.1
      simp [elapsedMs, buttonTimeMs] at htime
    · exact h
    · exact h
    · exact h
    · exact h
    · exact h.elim

end

/-- Settles O37: a command that changes the stage resets it or runs CONTROL, which follows the summary. -/
theorem stageTransitionsAreTheSummary : Obligations.StageTransitionsAreTheSummary := by
  unfold Obligations.StageTransitionsAreTheSummary
  refine ⟨fun i s t hexec hne => ?_, fun raw btn door now s hrun hp => ⟨_, exec_tick .., fun next h => ?_⟩⟩
  · obtain hsame | ⟨hreset, -⟩ | ⟨raw, btn, door, now, ms, hi, hms, hctl⟩ := exec_ctl_cases hexec
    · exact absurd (congrArg StageController.stage hsame) hne
    · exact .inl hreset
    · rw [hctl] at hne ⊢
      exact .inr ⟨raw, btn, door, now, hi,
        (transition_of_controlled_ne (c := s.ctl.withPress ms) rfl hne).of_withPress hms⟩
  · rw [ticked_run_ctl hrun]
    exact ⟨controlled_stage_of_transition hp rfl h, h.ne⟩

/-! ### The order of the rising checkpoints (R203) -/

section
variable {x y : Checkpoint} {es : Seconds}

/-- Of two checkpoints in order, the later one's condition implying the earlier one's, both may latch. -/
theorem latch_ordered {lo hi : Bool} (hcond : hi = true → lo = true)
    (hxy : y.valid = true → x.valid = true ∧ x.seconds.toNat ≤ y.seconds.toNat)
    (hes : x.valid = true → x.seconds.toNat ≤ es.toNat) (h : (y.latch hi es).valid = true) :
    (x.latch lo es).valid = true ∧ (x.latch lo es).seconds.toNat ≤ (y.latch hi es).seconds.toNat := by
  cases hy : y.valid with
  | true =>
    obtain ⟨hx, hle⟩ := hxy hy
    rw [latch_of_valid hx, latch_of_valid hy]
    exact ⟨hx, hle⟩
  | false =>
    cases hhi : hi with
    | false => rw [latch_of_not hhi, hy] at h; cases h
    | true =>
      rw [latch_of rfl hy]
      cases hx : x.valid with
      | true => rw [latch_of_valid hx]; exact ⟨hx, hes hx⟩
      | false => rw [latch_of (hcond hhi) hx]; exact ⟨rfl, le_rfl⟩

theorem latch_notAfter {condition : Bool} (hes : x.valid = true → x.seconds.toNat ≤ es.toNat)
    (h : (x.latch condition es).valid = true) : (x.latch condition es).seconds.toNat ≤ es.toNat := by
  rw [latch_eq_ite] at h ⊢
  split_ifs at h ⊢ with hlatch
  · exact le_rfl
  · exact hes h

end

section
variable {c : StageController} {es : Seconds}

/-- The thresholds rise, so the checkpoints latch in order (R186 to R188). -/
theorem checkpointsUp_ordered (t : Binary64) (h : CheckpointsOrdered c.record)
    (hes : CheckpointsNotAfter es c.record) : CheckpointsOrdered (checkpointsUp t es c).record where
  first := latch_ordered (Binary64.le_of_le_of_le (by decide +kernel)) h.first hes.el50
  second := latch_ordered (Binary64.le_of_le_of_le (by decide +kernel)) h.second hes.el150

theorem checkpointsUp_notAfter (t : Binary64) (hes : CheckpointsNotAfter es c.record) :
    CheckpointsNotAfter es (checkpointsUp t es c).record where
  el50 := latch_notAfter hes.el50
  el150 := latch_notAfter hes.el150
  el180up := latch_notAfter hes.el180up

/-- A record without a rising checkpoint is in order. -/
theorem checkpointsOrdered_of_none {r : RunRecord} (h150 : r.el150.valid = false)
    (h180 : r.el180up.valid = false) : CheckpointsOrdered r :=
  ⟨fun h => absurd h (by simp [h150]), fun h => absurd h (by simp [h180])⟩

/-- The button part keeps the record, or clears it at the start of a run (R183). -/
theorem buttonPart_ordered {e : Estimator} {btn : Bool} {now : Millis} (h : CheckpointsOrdered c.record) :
    CheckpointsOrdered (buttonPart e btn now c).record := by
  unfold buttonPart
  split_ifs
  · exact h
  · exact h
  · exact checkpointsOrdered_of_none rfl rfl
  · exact h

/-- CONTROL keeps the order where the clock has not gone back behind a checkpoint (R315). -/
theorem controlled_ordered {p : Params} {e : Estimator} {btn : Bool} {now : Millis}
    (h : CheckpointsOrdered c.record)
    (hes : CheckpointsNotAfter (elapsedSeconds now c.record.runStartMs) c.record) :
    CheckpointsOrdered (controlled p e btn now c).record := by
  cases hs : c.stage with
  | off => rw [controlled_idle (.inl hs)]; exact buttonPart_ordered h
  | hold => rw [controlled_idle (.inr hs)]; exact buttonPart_ordered h
  | preheat => rw [controlled_record_rising (.inl hs)]; exact checkpointsUp_ordered _ h hes
  | soak => rw [controlled_record_rising (.inr hs)]; exact checkpointsUp_ordered _ h hes
  | reflow =>
    rw [controlled_in_run hs rfl, safetyOverride_record, profilePart]
    obtain ⟨_, _, _, ht⟩ | ⟨-, ht⟩ | ⟨-, ht⟩ := reflowTable_cases p (celsius e.tempK) now c <;> rw [ht]
    · exact h
    · exact ⟨h.first, h.second⟩
    · exact h
  | cool =>
    rw [controlled_in_run hs rfl, safetyOverride_record, profilePart]
    cases ht : (celsius e.tempK).le (degC 50) with
    | true => rw [coolTable_end_eq ht]; exact checkpointsOrdered_of_none rfl rfl
    | false => rw [coolTable_on_eq ht]; exact ⟨h.first, h.second⟩

end

/-- Settles O38: CONTROL alone writes a checkpoint but for RESET, in Preheat and Soak at the elapsed seconds of its
TICK. -/
theorem checkpointsStayOrdered : Obligations.CheckpointsStayOrdered := by
  unfold Obligations.CheckpointsStayOrdered
  intro i s t hexec hordered hes
  obtain hsame | ⟨hi, hreset⟩ | ⟨raw, btn, door, now, ms, hi, -, hctl⟩ := exec_ctl_cases hexec
  · rw [hsame]
    exact ⟨hordered, fun raw btn door now hi _ => hes raw btn door now hi⟩
  · rw [hreset]
    exact ⟨checkpointsOrdered_of_none rfl rfl, fun raw btn door now htick => by rw [hi] at htick; cases htick⟩
  · have hclock := hes raw btn door now hi
    rw [hctl]
    refine ⟨controlled_ordered (c := s.ctl.withPress ms) hordered hclock, fun raw' btn' door' now' htick hs => ?_⟩
    rw [hi] at htick
    cases htick
    rw [controlled_record_rising (c := s.ctl.withPress ms) hs]
    exact checkpointsUp_notAfter (c := s.ctl.withPress ms) _ hclock

end Sys2Proof.Machine
end

section
/-! The PWM Duty Driver (R240 to R245): the slice and the threshold of an elapsed time, the relays after a RUN TICK,
and the on-time of each power. -/

namespace Sys2Proof.Machine

/-! ### Slices and thresholds (R241 to R243) -/

/-- Settles O39: the slice is the place of the first bound that exceeds the elapsed time. -/
theorem sliceBoundaries : Obligations.SliceBoundaries := by
  unfold Obligations.SliceBoundaries
  intro e he
  simp only [slice, pwmBreaks, List.findIdx_cons, List.findIdx_nil, Bool.cond_decide]
  split_ifs <;> rfl

/-- The least power that turns a relay on at an elapsed time of the cycle: the slice's index, but in slice 6 the
parameter (R242, R243). -/
def sliceThreshold (slice6MinPower e : Nat) : Nat :=
  if e < 166 then 1 else if e < 333 then 2 else if e < 500 then 3 else if e < 666 then 4
  else if e < 833 then 5 else slice6MinPower

section
variable {n e : Nat} {power : Power}

/-- A relay is on where the power reaches the slice's threshold. -/
theorem relayOn_slice (he : e < 1000) :
    relayOn n power (slice e) = decide (sliceThreshold n e ≤ power.val) := by
  rw [sliceBoundaries e he, sliceThreshold]
  split_ifs
  any_goals exact relayOn_of_ne (by decide)
  exact relayOn_six

/-! ### The on-time of a power (R245) -/

/-- How long a power is on from the start of a cycle: the whole cycle from slice 6's threshold on, below it up to the
end of the slice that the power names. -/
def onTimeMs (slice6MinPower : Nat) (power : Power) : Nat :=
  if slice6MinPower ≤ power.val then pwmPeriodMs else (0 :: pwmBreaks)[power.val]

theorem onTimeMs_le : onTimeMs n power ≤ 1000 := by
  unfold onTimeMs
  split
  · exact le_rfl
  · fin_cases power <;> decide

theorem sliceThreshold_le (hn : 5 ≤ n) : sliceThreshold n e ≤ n := by
  unfold sliceThreshold
  split_ifs <;> omega

/-- Every pattern is one on-interval at the start of the cycle. -/
theorem sliceThreshold_le_iff (hn : n = 5 ∨ n = 6) (he : e < 1000) :
    sliceThreshold n e ≤ power.val ↔ e < onTimeMs n power := by
  by_cases hp : n ≤ power.val
  · rw [onTimeMs, if_pos hp]
    exact iff_of_true ((sliceThreshold_le (by omega)).trans hp) he
  · rw [onTimeMs, if_neg hp, sliceThreshold]
    fin_cases power
    all_goals
      simp only [pwmBreaks, List.getElem_cons_succ, List.getElem_cons_zero] at hp ⊢
      split_ifs <;> omega

/-- The numbers below `b` among the first `m`. -/
theorem countP_lt_range (b m : Nat) : (List.range m).countP (fun e => decide (e < b)) = min b m := by
  induction m with
  | zero => simp
  | succ m ih =>
    rw [List.range_succ, List.countP_append, ih, List.countP_singleton]
    by_cases h : m < b
    · rw [if_pos (decide_eq_true h)]; omega
    · rw [if_neg (by simpa using h)]; omega

/-- Over the milliseconds of a cycle a relay is on for the on-time of its power. -/
theorem countP_relayOn_slice (hn : n = 5 ∨ n = 6) :
    ((List.range 1000).countP fun e => relayOn n power (slice e)) = onTimeMs n power := by
  have hon : ∀ e ∈ List.range 1000, relayOn n power (slice e) = true ↔ decide (e < onTimeMs n power) = true := by
    intro e he
    have hlt := List.mem_range.mp he
    rw [relayOn_slice hlt, decide_eq_true_iff, decide_eq_true_iff, sliceThreshold_le_iff hn hlt]
  rw [List.countP_congr hon, countP_lt_range, min_eq_left onTimeMs_le]

end

/-- Settles O41: the count is the on-time, for each power and both thresholds. -/
theorem dutyOfEachPower : Obligations.DutyOfEachPower := by
  unfold Obligations.DutyOfEachPower
  simp only [countP_relayOn_slice (.inl rfl), countP_relayOn_slice (.inr rfl)]
  decide

/-! ### The relays after a RUN TICK (R240, R244) -/

/-- Settles O40: after the restart test the elapsed time lies in the cycle, where each relay follows the threshold. -/
theorem relaysFollowThePowersThroughTheSlices : Obligations.RelaysFollowThePowersThroughTheSlices := by
  unfold Obligations.RelaysFollowThePowersThroughTheSlices
  intro raw btn door now s hrun
  have he := elapsedMs_pwmCycleStart now s.pwm.startMs
  refine ⟨_, exec_tick .., ?_⟩
  rw [ticked_run_pwm hrun, driven, relayOn_slice he, relayOn_slice he]
  rfl

end Sys2Proof.Machine
end

section
/-! The door alarm and the beeper (R260 to R267): ALARM's condition and its rows under the invariant, and the beep
period after its restart test. -/

namespace Sys2Proof.Machine

section
variable {door : Bool} {now : Millis} {c : StageController}

/-! ### The gated alarm (R261 to R263) -/

/-- The gated alarm, on its operands. -/
theorem gatedAlarm_iff : gatedAlarm door now c = true ↔
    door ≠ c.record.doorAlarmEn ∧
      ¬(c.stage = .cool ∧ c.record.doorOpenValid = true ∧ 8000 ≤ (now - c.record.doorOpenMs).toNat) := by
  rw [gatedAlarm, rawAlarm, Bool.and_eq_true, Bool.xor_iff_ne, Bool.not_eq_true', ← Bool.not_eq_true,
    alarmSuppressed_iff]

/-! ### The rows of the truth table (R267) -/

/-- Where nothing suppresses it, the alarm is the raw one. -/
theorem gatedAlarm_of_not_suppressed
    (h : ¬(c.stage = .cool ∧ 8000 ≤ (now - c.record.doorOpenMs).toNat)) :
    gatedAlarm door now c = (door ^^ c.record.doorAlarmEn) := by
  have hsup : alarmSuppressed now c = false := by
    rw [← Bool.not_eq_true, alarmSuppressed_iff]
    exact fun ⟨hcool, _, hlate⟩ => h ⟨hcool, hlate⟩
  rw [gatedAlarm, hsup, Bool.not_false, Bool.and_true, rawAlarm]

/-- Outside Cool the alarm is not enabled, and follows the open door. -/
theorem StageInv.gatedAlarm_of_ne_cool (h : StageInv c) (hs : c.stage ≠ .cool) :
    gatedAlarm door now c = door := by
  rw [gatedAlarm_of_not_suppressed fun hsup => hs hsup.1, h.alarm_enabled, decide_eq_false hs, Bool.xor_false]

/-- In Cool, within the window, the alarm is enabled, and follows the closed door. -/
theorem StageInv.gatedAlarm_of_cool_within (h : StageInv c) (hs : c.stage = .cool)
    (hwindow : (now - c.record.doorOpenMs).toNat < 8000) : gatedAlarm door now c = !door := by
  rw [gatedAlarm_of_not_suppressed fun hsup => absurd hsup.2 (Nat.not_le.mpr hwindow), h.alarm_enabled,
    decide_eq_true hs, Bool.xor_true]

/-- In Cool the door-open timestamp is valid, so the alarm is suppressed after the window. -/
theorem StageInv.gatedAlarm_of_cool_after (h : StageInv c) (hs : c.stage = .cool)
    (hwindow : 8000 ≤ (now - c.record.doorOpenMs).toNat) : gatedAlarm door now c = false := by
  rw [← Bool.not_eq_true, gatedAlarm_iff]
  exact fun ⟨_, hgate⟩ => hgate ⟨hs, h.door_valid.trans (decide_eq_true hs), hwindow⟩

end

section
variable {raw : AdcCode} {btn door : Bool} {now : Millis} {s : State} (h : s.boot.phase = .run)
include h

/-! ### The registers after a RUN TICK -/

/-- BEEP leaves what ALARM wrote (R260, R263). -/
theorem ticked_run_alarmActive : (ticked raw btn door now s).alarm.alarmActive =
    gatedAlarm door now (ticked raw btn door now s).ctl := by
  rw [ticked_run_alarm h, beeped_alarmActive]

theorem ticked_run_beepStartMs : (ticked raw btn door now s).alarm.beepStartMs =
    beepCycleStart now s.alarm.beepStartMs := by
  rw [ticked_run_alarm h, beeped_beepStartMs]

/-- The beeper reads the alarm and the period start that this TICK left (R265). -/
theorem ticked_run_buzzerOn_iff : (ticked raw btn door now s).alarm.buzzerOn = true ↔
    (ticked raw btn door now s).alarm.alarmActive = true ∧
      (now - (ticked raw btn door now s).alarm.beepStartMs).toNat < 1000 := by
  rw [ticked_run_alarm h, beeped_buzzerOn_iff, beeped_alarmActive, beeped_beepStartMs]

end

/-- The buzzer's pin is not inverted (R51). -/
theorem pins_buzzer (s : State) : s.pins.buzzer = s.alarm.buzzerOn := Bool.xor_false _

/-- Settles O42: ALARM reads the stage and the record that CONTROL left, and BEEP keeps its answer. -/
theorem doorAlarmRule : Obligations.DoorAlarmRule := by
  unfold Obligations.DoorAlarmRule
  intro raw btn door now s hrun
  refine ⟨_, exec_tick .., ?_⟩
  rw [ticked_run_alarmActive hrun, gatedAlarm_iff]

/-- Settles O43: the restart test decides the period's start, and the buzzer is read from it. -/
theorem beeperRule : Obligations.BeeperRule := by
  unfold Obligations.BeeperRule
  intro raw btn door now s hrun
  exact ⟨_, exec_tick .., ticked_run_beepStartMs hrun, ticked_run_buzzerOn_iff hrun, pins_buzzer _⟩

/-- Settles O44: a TICK keeps the invariant, which gives the enable and the valid flag from the stage CONTROL left;
an inactive alarm silences the buzzer. -/
theorem alarmTruthTable : Obligations.AlarmTruthTable := by
  unfold Obligations.AlarmTruthTable
  intro raw btn door now s hrun hinv
  have hinv' := ticked_inv raw btn door now hinv
  have hctl := hinv'.controller.stageInv
  have halarm := ticked_run_alarmActive (raw := raw) (btn := btn) (door := door) (now := now) hrun
  refine ⟨_, exec_tick .., fun hs => halarm.trans (hctl.gatedAlarm_of_ne_cool hs),
    fun hs hwindow => halarm.trans (hctl.gatedAlarm_of_cool_within hs hwindow), fun hs hwindow => ?_⟩
  have hoff := halarm.trans (hctl.gatedAlarm_of_cool_after hs hwindow)
  refine ⟨hoff, Bool.eq_false_iff.mpr fun hbuzzer => ?_⟩
  exact absurd (hinv'.outputs.buzzer hbuzzer) (Bool.eq_false_iff.mp hoff)

end Sys2Proof.Machine
end

section
/-! The step with no command issued (R293). -/

namespace Sys2Proof.Machine

/-- The block takes nothing from an empty inbox. -/
theorem takeBundle_of_inbox_nil {s : State} (h : s.inbox = []) : s.takeBundle = none := by
  rw [State.takeBundle, h]

/-- Settles O9: there is no bundle to take, and `step` then answers the state before any check of the parameters. -/
theorem idleStepHoldsTheState : Obligations.IdleStepHoldsTheState := by
  unfold Obligations.IdleStepHoldsTheState
  intro s hinbox
  rw [step, takeBundle_of_inbox_nil hinbox]

end Sys2Proof.Machine
end

section
/-! The boot sequence (R312, R313). -/

namespace Sys2Proof.Machine

/-- The TICK that ends the boot is the first RUN TICK (R312): it does what it does to the state whose boot has ended
and whose timers start at its time. -/
theorem ticked_bootEnd_eq_ticked_run {raw : AdcCode} {btn door : Bool} {now : Millis} {s : State}
    (h : s.boot.phase = .booting) (he : bootDelayMs ≤ elapsedMs now s.boot.startMs) :
    ticked raw btn door now s =
      ticked raw btn door now ((bootEnd now s).setBoot { s.boot with phase := .run }) :=
  calc ticked raw btn door now s
    _ = body raw btn door now ((bootEnd now s.clearEvents).setBoot { s.boot with phase := .run }) :=
      ticked_bootEnd h he
    _ = body raw btn door now ((bootEnd now s).setBoot { s.boot with phase := .run }).clearEvents := rfl
    _ = ticked raw btn door now ((bootEnd now s).setBoot { s.boot with phase := .run }) :=
      (ticked_run rfl).symm

/-- Settles O16: the three clauses are the three branches of a TICK before the boot has ended. -/
theorem bootSequence : Obligations.BootSequence := by
  unfold Obligations.BootSequence
  intro raw btn door now s
  exact ⟨fun h => congrArg _ (ticked_waitFirst h), fun h he => congrArg _ (ticked_booting h he),
    fun h he => congrArg Host.Outcome.next (ticked_bootEnd_eq_ticked_run h he)⟩

end Sys2Proof.Machine
end
